-- ==== Sys2Proof/Word.lean ====
section
/-! DEFINITION. The bit-vector types of the block: the request word, its payload byte and the nibble.
Every value is an unsigned bit vector, bit 0 least significant (R17 of spec/00_scope.md). -/

namespace Sys2Proof

/-- A request word, 16 bits (R16, R100). -/
abbrev Word := BitVec 16

/-- A byte sent by FRAME (R102). -/
abbrev Byte := BitVec 8

/-- A nibble, "4 bits, the unit transferred per strobe in 4-bit mode" (R20). -/
abbrev Nibble := BitVec 4

/-- A set of pin channels, bit p for channel p (R34, R35, R38). -/
abbrev ChanSet := BitVec 6

end Sys2Proof
end

