-- ==== Sys2Proof/Machine/Pins.lean ====
section
/-! DEFINITION. The six pin channels, the transactions on them, the pin-level record, and the inputs of one tick
(spec/20_memory.md R71 to R76, spec/10_state.md R43). -/

namespace Sys2Proof.Machine

/-- The six pin channels by role (R71). -/
inductive Chan where
  /-- register-select -/
  | rs
  /-- enable -/
  | e
  /-- data line 1, DB4, bit 0 of a nibble -/
  | d0
  /-- data line 2, DB5, bit 1 -/
  | d1
  /-- data line 3, DB6, bit 2 -/
  | d2
  /-- data line 4, DB7, bit 3 -/
  | d3
deriving DecidableEq, Repr, Inhabited

/-- The pin-channel index p of a role (R71). -/
def Chan.index : Chan → Nat
  | .rs => 0
  | .e => 1
  | .d0 => 2
  | .d1 => 3
  | .d2 => 4
  | .d3 => 5

/-- The channels in ascending p, the order of phase 1 and of a group's issues (R142). -/
def Chan.all : List Chan := [.rs, .e, .d0, .d1, .d2, .d3]

/-- One value per pin channel. -/
structure Pins (α : Type) where
  rs : α
  e : α
  d0 : α
  d1 : α
  d2 : α
  d3 : α
deriving DecidableEq, Repr, Inhabited

/-- The value at a channel. -/
def Pins.get {α : Type} (v : Pins α) : Chan → α
  | .rs => v.rs
  | .e => v.e
  | .d0 => v.d0
  | .d1 => v.d1
  | .d2 => v.d2
  | .d3 => v.d3

/-- Replace the value at one channel. -/
def Pins.set {α : Type} (v : Pins α) (p : Chan) (a : α) : Pins α :=
  match p with
  | .rs => { v with rs := a }
  | .e => { v with e := a }
  | .d0 => { v with d0 := a }
  | .d1 => { v with d1 := a }
  | .d2 => { v with d2 := a }
  | .d3 => { v with d3 := a }

/-- The value of a function of the channel, written out as six values. -/
def Pins.ofFn {α : Type} (f : Chan → α) : Pins α :=
  { rs := f .rs, e := f .e, d0 := f .d0, d1 := f .d1, d2 := f .d2, d3 := f .d3 }

/-- The same value on every channel. -/
def Pins.const {α : Type} (a : α) : Pins α := Pins.ofFn fun _ => a

/-- A pin transaction: PinOpen, PinWrite with a level, PinClose (R72). -/
inductive PinOp where
  | openPin
  | write (level : Bool)
  | closePin
deriving DecidableEq, Repr, Inhabited

/-- `pc_req_op[p]`: 00 OPEN, 01 WRITE, 10 CLOSE (R43). -/
def PinOp.code : PinOp → BitVec 2
  | .openPin => 0b00#2
  | .write _ => 0b01#2
  | .closePin => 0b10#2

/-- `pc_req_level[p]`: the level of a WRITE, 0 for OPEN and CLOSE (R43). -/
def PinOp.level : PinOp → Bool
  | .write l => l
  | _ => false

/-- The answer of a pin channel (R43, R73). -/
inductive PinStatus where
  | ok
  | fault
deriving DecidableEq, Repr, Inhabited

/-- `pc_rsp_status[p]`: 0 = OK, 1 = FAULT (R43). -/
def PinStatus.code : PinStatus → BitVec 1
  | .ok => 0#1
  | .fault => 1#1

/-- The recorded level of a channel: 0, 1, X (unknown), REL (released) (R48, R76). -/
inductive Lvl where
  | low
  | high
  | x
  | rel
deriving DecidableEq, Repr, Inhabited

/-- The recorded level of a written bit. -/
def Lvl.ofBool : Bool → Lvl
  | false => .low
  | true => .high

/-- The inputs of one tick (R43). A `none` response is `pc_rsp_valid[p] = 0`; a `none` request is `rq_valid = 0`. -/
structure TickIn where
  /-- `rst` -/
  rst : Bool
  /-- `cfg_rows_m1`, read in reset ticks only (R39) -/
  cfgRowsM1 : BitVec 2
  /-- `cfg_large_font`, read in reset ticks only (R39) -/
  cfgLargeFont : Bool
  /-- `rq_valid` and `rq_word` -/
  rq : Option Word
  /-- `pc_rsp_valid[p]` and `pc_rsp_status[p]` -/
  rsp : Pins (Option PinStatus)
deriving DecidableEq, Repr, Inhabited

/-- Channel p's bit of a 6-bit register (R35, R38). -/
def hasBit (m : ChanSet) (p : Chan) : Bool := m.getLsbD p.index

/-- The register with channel p's bit set. -/
def setBit (m : ChanSet) (p : Chan) : ChanSet := m ||| (1#6 <<< p.index)

/-- The register with channel p's bit cleared. -/
def clearBit (m : ChanSet) (p : Chan) : ChanSet := m &&& ~~~(1#6 <<< p.index)

/-- R76's pin-level column: the level recorded when a transaction completes. -/
def levelAfter (op : PinOp) (st : PinStatus) (old : Lvl) : Lvl :=
  match op, st with
  | .openPin, .ok => .x
  | .openPin, .fault => old
  | .write v, .ok => Lvl.ofBool v
  | .write _, .fault => .x
  | .closePin, _ => .rel

/-- R76's `opened` column: the register after a transaction on p completes. -/
def openedAfter (op : PinOp) (st : PinStatus) (p : Chan) (old : ChanSet) : ChanSet :=
  match op, st with
  | .openPin, .ok => setBit old p
  | .openPin, .fault => old
  | .write _, _ => old
  | .closePin, _ => clearBit old p

end Sys2Proof.Machine
end

