-- ==== Sys2Proof/Config.lean ====
section
/-! DEFINITION. The named parameters of an instantiation (R10, R11, R13 of spec/00_scope.md), the two sets the spec uses
(R12), and the free input of a tick. -/

namespace Sys2Proof

/-- The named parameters the spec leaves OPEN (R10, R11, R13; U15). A model takes them as an argument: they stand in
State and no step writes them.
DESIGN CHOICE (log entry 3): `T_CLK` is a whole number of picoseconds. -/
structure Params where
  /-- `T_CLK`, in picoseconds -/
  tClkPs : Nat
  nStrobe : Nat
  nPowerOn : Nat
  nW1 : Nat
  nW2 : Nat
  nW3 : Nat
  nLong : Nat
  /-- `W_WAIT`, the width of the wait counter -/
  wWait : Nat
deriving DecidableEq, Repr

namespace Config

/-- The six delay counts. -/
def counts (c : Params) : List Nat := [c.nStrobe, c.nPowerOn, c.nW1, c.nW2, c.nW3, c.nLong]

/-- Each count is at least 1 (R11) and the wait counter holds the largest of them (R13). -/
def legal (c : Params) : Bool := (counts c).all fun n => decide (1 ≤ n ∧ n < 2 ^ c.wWait)

/-- R11's lower bounds in real time: 300 ns, 15 ms, 4.1 ms, 160 µs, 160 µs, 1.52 ms. -/
def conformant (c : Params) : Bool :=
  legal c && decide (
    300000 ≤ c.nStrobe * c.tClkPs ∧
    15000000000 ≤ c.nPowerOn * c.tClkPs ∧
    4100000000 ≤ c.nW1 * c.tClkPs ∧
    160000000 ≤ c.nW2 * c.tClkPs ∧
    160000000 ≤ c.nW3 * c.tClkPs ∧
    1520000000 ≤ c.nLong * c.tClkPs)

/-- P_1MHz, the conformant reference with T_CLK = 1 µs (R12); W_WAIT = 14 is the least R13 admits. -/
def p1MHz : Params :=
  { tClkPs := 1000000, nStrobe := 1, nPowerOn := 15000, nW1 := 4100, nW2 := 160, nW3 := 160, nLong := 1520, wWait := 14 }

/-- P_T, the short test set of spec/95_test_vectors.md (R12): its six counts are the spec's. It is not conformant in real
time. DESIGN CHOICE (log entry 2): R12 gives P_T no `T_CLK` and no `W_WAIT`. They are 1 µs, as in P_1MHz, and 3, the least
width that R13 allows for these counts. -/
def pT : Params :=
  { tClkPs := 1000000, nStrobe := 1, nPowerOn := 5, nW1 := 3, nW2 := 2, nW3 := 2, nLong := 4, wWait := 3 }

/-- FREE VALUE. The inputs of a tick that the state's input list does not fix: the host, the backend and the platform may
drive anything (R75, R152). Log entry 1. -/
opaque envInput : Nat → Machine.TickIn

end Config

end Sys2Proof
end

