-- ==== Sys2Proof/Syntax.lean ====
section
/-! DEFINITION. The requests, one constructor per row of spec/opcode_table.json (R103 of spec/30_encoding.md). -/

namespace Sys2Proof

/-- A request. `settle` is bit S, which appends `Wait(N_LONG)` (R102). -/
inductive Instr where
  /-- CMD: send a byte with RS low (R104, R192). -/
  | cmd (b : Byte) (settle : Bool)
  /-- DATA: send a byte with RS high (R105, R193). -/
  | data (b : Byte) (settle : Bool)
  /-- NIB: write one raw nibble (R106, R172). `v` is the payload byte as the source's `writeNibble(value)` is given it;
  only a 4-bit value is well formed (R102). -/
  | nib (v : Byte) (settle : Bool)
  /-- CLOSE: release every pin the block holds (R107, R270). -/
  | close
deriving DecidableEq, Repr

end Sys2Proof
end

