-- ==== Sys2Proof/Machine/State.lean ====
section
/-! DEFINITION. The state of the block and of its environment, as plain data (spec/10_state.md), the reasons to stop, and
the state right after reset (R49). -/

namespace Sys2Proof.Machine

/-- `mode`: the lifecycle state (R31). -/
inductive Mode where
  | init
  | ready
  | closed
  | failed
deriving DecidableEq, Repr

/-- `pk`: the micro-program the sequencer is running (R32). The codes 0b101 to 0b111 "are never written" and have no
constructor (log entry 15). -/
inductive Pk where
  | none
  | init
  | nib
  | frame
  | close
deriving DecidableEq, Repr

/-- `istate`: the InitSequencer state (R40). The codes 9 to 15 "are never written" and have no constructor (log entry 15). -/
inductive IState where
  | poweredUnknown
  | woken1
  | woken2
  | woken3
  | fourBitMode
  | functionSet
  | entryConfigured
  | cleared
  | ready
deriving DecidableEq, Repr

/-- The status codes of R290; the three errors are the source's error kinds. -/
inductive RspStatus where
  | ok
  | invalidValue
  | pinFault
  | notReady
deriving DecidableEq, Repr

/-- The events of the history (R48, R296). `t` is the tick number. -/
inductive Event where
  | reset (t : Nat)
  | issue (t : Nat) (p : Chan) (op : PinOp)
  | complete (t : Nat) (p : Chan) (st : PinStatus)
  | response (t : Nat) (st : RspStatus)
  | ready (t : Nat)
  | initError (t : Nat) (kind : RspStatus)
deriving DecidableEq, Repr

/-- The outputs the block drives in one tick (R43). `none` is a valid line at 0. -/
structure TickOut where
  /-- `rq_ready` -/
  rqReady : Bool
  /-- `rsp_valid` and `rsp_status` -/
  rsp : Option RspStatus
  /-- `ev_ready` -/
  evReady : Bool
  /-- `ev_init_error` -/
  evInitError : Bool
  /-- `status[7:0]` -/
  status : BitVec 8
  /-- the level outputs of R42 -/
  ready : Bool
  failed : Bool
  closed : Bool
  /-- `pc_req_valid[p]`, `pc_req_op[p]`, `pc_req_level[p]` -/
  req : Pins (Option PinOp)
deriving DecidableEq, Repr

/-- The state: the registers of R31 to R40, the environment state of R48, the outputs of the tick just run, the parameters,
and the inputs still to come. -/
structure State where
  /-- the named parameters (R10, R11, R13); no step writes them -/
  params : Params
  /-- R31 -/
  mode : Mode
  /-- R32 -/
  pk : Pk
  /-- R33 -/
  upc : BitVec 7
  /-- `h_word` (R34) -/
  hWord : Word
  /-- `h_cmask` (R34) -/
  hCmask : ChanSet
  /-- R35 -/
  pend : ChanSet
  /-- R36 -/
  fault : Bool
  /-- R37: a counter of `W_WAIT` bits, its value below `2 ^ params.wWait` -/
  wait : Nat
  /-- R38 -/
  opened : ChanSet
  /-- `cfg_rows_m1_q` (R39) -/
  cfgRowsM1Q : BitVec 2
  /-- `cfg_lf_q` (R39) -/
  cfgLfQ : Bool
  /-- R40 -/
  istate : IState
  /-- the operation outstanding on each channel while its `pend` bit is set (R73: "the transaction's op"); log entry 9 -/
  txn : Pins PinOp
  /-- the pin-level record (R48, R76) -/
  lvl : Pins Lvl
  /-- the event history, oldest first (R48, R296) -/
  history : List Event
  /-- the number of the last tick run; tick 1 is the first after a reset tick (R141) -/
  now : Nat
  /-- the outputs driven in the tick just run (R43) -/
  out : TickOut
  /-- the inputs of the coming ticks, oldest first (log entry 1) -/
  inputs : List TickIn
  /-- how many inputs have been drawn freely (log entry 1) -/
  draws : Nat
deriving DecidableEq, Repr

/-- Why the machine stops. The spec's own errors are statuses (R290) and stop nothing. -/
inductive Fault where
  /-- Raised by the sequencer when `upc > len(prog)`, outside the legal range of R33, where R144 has no case. Safe: the
  model stops where the spec says nothing, and no run from reset gets there (log entry 8). -/
  | upcOutOfRange
deriving DecidableEq, Repr

/-- Why an instruction has no meaning. -/
inductive Refusal where
  /-- Raised by an arm of exec whose instruction has no meaning yet. Safe. No arm raises it. -/
  | notModelled (mnemonic : String)
deriving DecidableEq, Repr

/-- The outputs of a reset tick: everything 0 and `status` at its reset value 0x04 (R330). -/
def resetOut : TickOut :=
  { rqReady := false
    rsp := none
    evReady := false
    evInitError := false
    status := 0x04#8
    ready := false
    failed := false
    closed := false
    req := Pins.const none }

/-- The state right after one reset tick from power-up (R49, R330). Every register has the value of R49.
DESIGN CHOICE: the sampled configuration inputs are the tie-off of R14 (log entry 4), the parameters are P_1MHz (log
entry 2), and `txn` is OPEN everywhere (log entry 9). -/
def State.reset : State :=
  { params := Config.p1MHz
    mode := .init
    pk := .init
    upc := 0#7
    hWord := 0x0000#16
    hCmask := 0b000000#6
    pend := 0b000000#6
    fault := false
    wait := 0
    opened := 0b000000#6
    cfgRowsM1Q := 0#2
    cfgLfQ := false
    istate := .poweredUnknown
    txn := Pins.const .openPin
    lvl := Pins.const .x
    history := [.reset 0]
    now := 0
    out := resetOut
    inputs := []
    draws := 0 }

end Sys2Proof.Machine
end

