-- ==== Sys2Proof/Machine/Flags.lean ====
section
/-! DEFINITION. The codes of the coded registers and the views of R41 and R42 (spec/10_state.md). The block has no status
flags or condition codes (R45): its one status register is the read-only vector of R41. -/

namespace Sys2Proof.Machine

/-- R31's codes. -/
def Mode.code : Mode → BitVec 2
  | .init => 0b00#2
  | .ready => 0b01#2
  | .closed => 0b10#2
  | .failed => 0b11#2

/-- R32's codes. -/
def Pk.code : Pk → BitVec 3
  | .none => 0b000#3
  | .init => 0b001#3
  | .nib => 0b010#3
  | .frame => 0b011#3
  | .close => 0b100#3

/-- R40's codes. -/
def IState.code : IState → BitVec 4
  | .poweredUnknown => 0#4
  | .woken1 => 1#4
  | .woken2 => 2#4
  | .woken3 => 3#4
  | .fourBitMode => 4#4
  | .functionSet => 5#4
  | .entryConfigured => 6#4
  | .cleared => 7#4
  | .ready => 8#4

/-- R290's codes. -/
def RspStatus.code : RspStatus → BitVec 2
  | .ok => 0b00#2
  | .invalidValue => 0b01#2
  | .pinFault => 0b10#2
  | .notReady => 0b11#2

/-- The block is active exactly when `pk != NONE` (R32). -/
def busy (s : State) : Bool := decide (s.pk ≠ .none)

/-- `status[7:0]` (R41): ISTATE in 7:4, 0 in bit 3, BUSY in bit 2, MODE in 1:0. -/
def statusVec (s : State) : BitVec 8 :=
  s.istate.code ++ 0#1 ++ BitVec.ofBool (busy s) ++ s.mode.code

/-- The `ready` level (R42). -/
def readyLevel (s : State) : Bool := decide (s.mode = .ready)

/-- The `failed` level (R42). -/
def failedLevel (s : State) : Bool := decide (s.mode = .failed)

/-- The `closed` level (R42). -/
def closedLevel (s : State) : Bool := decide (s.mode = .closed)

/-- `rq_ready` outside reset ticks, from the start-of-tick `pk` and `mode` (R147). -/
def rqReady (mode0 : Mode) (pk0 : Pk) : Bool := decide (pk0 = .none ∨ mode0 = .init)

end Sys2Proof.Machine
end

