-- ==== Sys2Proof/WellFormed.lean ====
section
/-! DEFINITION. Which request terms are legal words: a NIB value is a 4-bit value (R102, R106 of spec/30_encoding.md). -/

namespace Sys2Proof

/-- A term that some legal word stands for. Every byte is legal in CMD and DATA (R192); a NIB needs `PAY[7:4] = 0`. -/
def Instr.wellFormed : Instr → Bool
  | .cmd _ _ => true
  | .data _ _ => true
  | .nib v _ => decide (v.toNat < 16)
  | .close => true

end Sys2Proof
end

