-- ==== Sys2Proof/Decode.lean ====
section
/-! DEFINITION. The fields of a request word, the total decoder of R108, and the encoder (spec/30_encoding.md).
A request word moves whole and has no byte order (R78), so decoding starts from the 16-bit word. -/

namespace Sys2Proof

/-- `OP = w[15:12]` (R100). -/
def wordOp (w : Word) : BitVec 4 := w.extractLsb' 12 4

/-- `RSV = w[11:10]` (R100). -/
def wordRsv (w : Word) : BitVec 2 := w.extractLsb' 10 2

/-- `RS = w[9]`: 0 = Command, 1 = Data (R100). -/
def wordRs (w : Word) : Bool := w.getLsbD 9

/-- `S = w[8]`: settle (R100). -/
def wordSettle (w : Word) : Bool := w.getLsbD 8

/-- `PAY = w[7:0]`, the byte of a SEND (R100, R102). -/
def wordByte (w : Word) : Byte := w.extractLsb' 0 8

/-- `v = w[3:0]`, the value of a NIB (R102). -/
def wordNibble (w : Word) : Nibble := w.extractLsb' 0 4

/-- Why a word is INVALID: the four classes of R109, the NIB class told apart by its two causes. -/
inductive DecodeReject where
  /-- `OP` in {0x0, 0x4..0xF} -/
  | reservedOp
  /-- `RSV != 0` -/
  | reservedBits
  /-- a NIB word with `RS = 1` -/
  | nibRegisterSelect
  /-- a NIB word with `PAY[7:4] != 0`, "writeNibble given a non-4-bit value" -/
  | nibNotFourBits
  /-- an `OP = 0x3` word other than `0x3000` -/
  | closeOperand
deriving DecidableEq, Repr

/-- The class of R109 that an INVALID word falls in, looking at OP first, then RSV, then the operation's own fields. -/
def rejectReason (w : Word) : DecodeReject :=
  if wordOp w = 0#4 ∨ 4#4 ≤ wordOp w then .reservedOp
  else if wordRsv w ≠ 0#2 then .reservedBits
  else if wordOp w = 3#4 then .closeOperand
  else if wordRs w then .nibRegisterSelect
  else .nibNotFourBits

/-- `decode(w)` of R108, test by test; INVALID is named by its class. -/
def decode (w : Word) : Except DecodeReject Instr :=
  if w &&& 0xFE00#16 = 0x1000#16 then .ok (.cmd (wordByte w) (wordSettle w))
  else if w &&& 0xFE00#16 = 0x1200#16 then .ok (.data (wordByte w) (wordSettle w))
  else if w &&& 0xFEF0#16 = 0x2000#16 then .ok (.nib ((wordNibble w).setWidth 8) (wordSettle w))
  else if w = 0x3000#16 then .ok .close
  else .error (rejectReason w)

/-- The S bit in place (R100). -/
def settleBit (s : Bool) : Word := if s then 0x0100#16 else 0x0000#16

/-- The word of a well-formed request (R104 to R107, R111). -/
def encode : Instr → Word
  | .cmd b s => 0x1000#16 ||| settleBit s ||| b.setWidth 16
  | .data b s => 0x1200#16 ||| settleBit s ||| b.setWidth 16
  | .nib v s => 0x2000#16 ||| settleBit s ||| v.setWidth 16
  | .close => 0x3000#16

/-- `match` of an instruction's row in spec/opcode_table.json. -/
def rowMatch : Instr → Word
  | .cmd _ _ => 0x1000#16
  | .data _ _ => 0x1200#16
  | .nib _ _ => 0x2000#16
  | .close => 0x3000#16

/-- `mask` of an instruction's row in spec/opcode_table.json. -/
def rowMask : Instr → Word
  | .cmd _ _ => 0xFE00#16
  | .data _ _ => 0xFE00#16
  | .nib _ _ => 0xFEF0#16
  | .close => 0xFFFF#16

/-- The request the decoder reads from an opcode-table word of `nbits` bits. Every request is one 16-bit word (R101), so a
value above 16 bits is no request. -/
def decodeTableWord (nbits w : Nat) : Option Instr :=
  if w % 2 ^ nbits < 2 ^ 16 then
    match decode (BitVec.ofNat 16 (w % 2 ^ nbits)) with
    | .ok i => some i
    | .error _ => none
  else none

end Sys2Proof
end

