-- ==== Sys2Proof/Machine/Operands.lean ====
section
/-! DEFINITION. The values a micro-program is built from: the two nibbles of a byte, the bit a data line carries, and the
function-set byte (R77, R194, R243). This is all the arithmetic of the block (R194). -/

namespace Sys2Proof.Machine

/-- `hi = b >> 4 = b[7:4]` (R194). -/
def hiNibble (b : Byte) : Nibble := (b >>> 4).setWidth 4

/-- `lo = b & 0xF = b[3:0]` (R194). -/
def loNibble (b : Byte) : Nibble := (b &&& 0x0F#8).setWidth 4

/-- The bit of a nibble that data line `D_i` carries: "bit 0 → first data line … bit 3 → fourth" (R77). -/
def lineBit (v : Nibble) (i : Nat) : Bool := v.getLsbD i

/-- `FS(rm1, lf)`, the function-set byte: the two optional bits are computed independently (R243, C3). -/
def functionSet (rm1 : BitVec 2) (lf : Bool) : Byte :=
  0x20#8
    ||| (if rm1 ≠ 0#2 then 0x08#8 else 0x00#8)
    ||| (if rm1 = 0#2 ∧ lf = true then 0x04#8 else 0x00#8)

end Sys2Proof.Machine
end

