-- ==== Sys2Proof/Machine/Program.lean ====
section
/-! DEFINITION. The micro-programs: NIBBLE (R170), FRAME (R190), SETTLE and `prog` (R140), CLOSE_PROG (R271), INIT_PROG
(R241), and the state codes of the INIT items (R245). -/

namespace Sys2Proof.Machine

/-- An item of a micro-program: a group of transactions issued together, at most one per channel (R142), or a wait
(R143). -/
inductive Item where
  | group (ops : Pins (Option PinOp))
  | wait (n : Nat)
deriving DecidableEq, Repr

/-- A group with no member, to build groups from. -/
def noOps : Pins (Option PinOp) := Pins.const none

/-- `Group{ PinWrite(p, v) }`. -/
def writeOne (p : Chan) (v : Bool) : Item := .group (noOps.set p (some (.write v)))

/-- The data group of NIBBLE: the four lines, bit i on `D_i` (R170, R77). -/
def dataGroup (v : Nibble) : Item :=
  .group { rs := none
           e := none
           d0 := some (.write (lineBit v 0))
           d1 := some (.write (lineBit v 1))
           d2 := some (.write (lineBit v 2))
           d3 := some (.write (lineBit v 3)) }

/-- `NIBBLE(v)` (R170). -/
def nibble (c : Params) (v : Nibble) : List Item :=
  [dataGroup v, writeOne .e true, .wait c.nStrobe, writeOne .e false]

/-- `FRAME(b, m)` (R190). -/
def frame (c : Params) (b : Byte) (m : Bool) : List Item :=
  writeOne .rs m :: (nibble c (hiNibble b) ++ nibble c (loNibble b))

/-- `SETTLE(s)` (R140). -/
def settle (c : Params) (s : Bool) : List Item := if s then [.wait c.nLong] else []

/-- `CLOSE_PROG(cmask)` (R271). -/
def closeProg (m : ChanSet) : List Item :=
  if m = 0b000000#6 then []
  else [.group (Pins.ofFn fun p => if hasBit m p then some .closePin else none)]

/-- `INIT_PROG(rm1, lf)`, 68 items (R241). -/
def initProg (c : Params) (rm1 : BitVec 2) (lf : Bool) : List Item :=
  [.group (Pins.const (some .openPin)), .group (Pins.const (some (.write false))), .wait c.nPowerOn]
    ++ nibble c 0x3#4 ++ [.wait c.nW1]
    ++ nibble c 0x3#4 ++ [.wait c.nW2]
    ++ nibble c 0x3#4 ++ [.wait c.nW3]
    ++ nibble c 0x2#4
    ++ frame c (functionSet rm1 lf) false
    ++ frame c 0x10#8 false
    ++ frame c 0x0C#8 false
    ++ frame c 0x06#8 false
    ++ frame c 0x01#8 false
    ++ [.wait c.nLong]

/-- `icode(k)`: the state code written when INIT's item k starts (R245). -/
def icode (k : Nat) : IState :=
  if k ≤ 6 then .poweredUnknown
  else if k ≤ 11 then .woken1
  else if k ≤ 16 then .woken2
  else if k ≤ 21 then .woken3
  else if k ≤ 30 then .fourBitMode
  else if k ≤ 57 then .functionSet
  else if k ≤ 66 then .entryConfigured
  else .cleared

/-- The current micro-program, a function of `pk`, `h_word`, `h_cmask` and the configuration registers (R140). -/
def prog (s : State) : List Item :=
  match s.pk with
  | .init => initProg s.params s.cfgRowsM1Q s.cfgLfQ
  | .nib => nibble s.params (wordNibble s.hWord) ++ settle s.params (wordSettle s.hWord)
  | .frame => frame s.params (wordByte s.hWord) (wordRs s.hWord) ++ settle s.params (wordSettle s.hWord)
  | .close => closeProg s.hCmask
  | .none => []

end Sys2Proof.Machine
end

