-- ==== Sys2Proof/Machine/Ops.lean ====
section
/-! DEFINITION. The named operations every part of a tick is written with: recording events, issuing and completing a pin
transaction, answering a request, loading and finishing a micro-program, raising an error, reset. -/

namespace Sys2Proof.Machine

/-- Append an event to the history (R48). -/
def record (ev : Event) (s : State) : State := { s with history := s.history ++ [ev] }

/-- `issue(t, p, op, lvl)` (R72): record it, drive `pc_req` on the channel, set `pend[p]`. R72 requires `pend[p] = 0`;
phase 2 issues only when `pend = 0` (R144). -/
def issue (p : Chan) (op : PinOp) (s : State) : State :=
  record (.issue s.now p op)
    { s with
      pend := setBit s.pend p
      txn := s.txn.set p op
      out := { s.out with req := s.out.req.set p (some op) } }

/-- `complete(t', p, st)` (R73) with the effect of R76 for the transaction's operation. -/
def complete (p : Chan) (st : PinStatus) (s : State) : State :=
  record (.complete s.now p st)
    { s with
      pend := clearBit s.pend p
      fault := s.fault || decide (st = .fault)
      opened := openedAfter (s.txn.get p) st p s.opened
      lvl := s.lvl.set p (levelAfter (s.txn.get p) st (s.lvl.get p)) }

/-- `emit Response(st)`: the event, and the one-tick pulse `rsp_valid` with `rsp_status` (R296). -/
def respond (st : RspStatus) (s : State) : State :=
  record (.response s.now st) { s with out := { s.out with rsp := some st } }

/-- `raise K`: `emit Response(K)`, and the request has ended (R18, R291). It saves no state and moves to no vector, and the
block has no return from it (R300, R301): this one operation is all there is of taking an exception. -/
def raiseError (k : RspStatus) (s : State) : State := respond k s

/-- `emit Ready`: the event and the pulse `ev_ready` (R296). -/
def emitReady (s : State) : State := record (.ready s.now) { s with out := { s.out with evReady := true } }

/-- `emit InitError(kind)`: the event and the pulse `ev_init_error` (R296). -/
def emitInitError (kind : RspStatus) (s : State) : State :=
  record (.initError s.now kind) { s with out := { s.out with evInitError := true } }

/-- Load a micro-program for an accepted word: `h_word <- w; pk; upc <- 0; fault <- 0` (R145, R148). -/
def load (kind : Pk) (w : Word) (s : State) : State :=
  { s with hWord := w, pk := kind, upc := 0#7, fault := false }

/-- The load of CLOSE also captures `h_cmask <- opened` (R148, R270). -/
def loadClose (w : Word) (s : State) : State := { load .close w s with hCmask := s.opened }

/-- `finish(OK)` when `pinFault` is false, `finish(PinFault)` when it is true (R146). -/
def finish (pinFault : Bool) (s : State) : State :=
  let st : RspStatus := if pinFault then .pinFault else .ok
  match s.pk with
  | .init =>
    if pinFault then { emitInitError .pinFault { s with mode := .failed } with pk := .none }
    else { emitReady { s with mode := .ready, istate := .ready } with pk := .none }
  | .close => { respond st { s with mode := .closed } with pk := .none }
  | .nib => { respond st s with pk := .none }
  | .frame => { respond st s with pk := .none }
  | .none => s

/-- Issue a group's member on one channel, if it has one there. -/
def issueMember (ops : Pins (Option PinOp)) (s : State) (p : Chan) : State :=
  match ops.get p with
  | some op => issue p op s
  | none => s

/-- Start a group: every member is issued, in ascending p (R142). -/
def startGroup (ops : Pins (Option PinOp)) (s : State) : State := Chan.all.foldl (issueMember ops) s

/-- Start a wait: `wait <- n`, a register of `W_WAIT` bits (R143, R37). Under R13 every count fits.
DEDUCED (log entry 7): a count that does not fit loses its high bits. -/
def startWait (n : Nat) (s : State) : State := { s with wait := n % 2 ^ s.params.wWait }

/-- The item-start of R144: `upc <- k + 1`, `istate <- icode(k)` in INIT, then the item. -/
def startItem (item : Item) (s : State) : State :=
  let s1 := { s with
    upc := s.upc + 1#7
    istate := if s.pk = .init then icode s.upc.toNat else s.istate }
  match item with
  | .group ops => startGroup ops s1
  | .wait n => startWait n s1

/-- The request checks of R148 and R299, in their order, for a word that names an operation: INIT or CLOSED answers
NotReady; a word presented while a program runs is not taken (R147: `rq_ready = 0`) and nothing changes; an operand that
makes the word INVALID answers InvalidValue; a mode that does not admit the operation answers NotReady (R294); otherwise
the program is loaded. -/
def request (legal : Bool) (admits : Mode → Bool) (loaded : State → State) (s : State) : State :=
  if s.mode = .init ∨ s.mode = .closed then raiseError .notReady s
  else if s.pk ≠ .none then s
  else if legal = false then raiseError .invalidValue s
  else if admits s.mode then loaded s
  else raiseError .notReady s

/-- What READY alone admits: CMD, DATA, NIB (R303). -/
def readyOnly (m : Mode) : Bool := decide (m = .ready)

/-- What READY and FAILED admit: CLOSE (R303). -/
def readyOrFailed (m : Mode) : Bool := decide (m = .ready ∨ m = .failed)

/-- A reset tick (R141, R330): every register takes its reset value, the configuration registers sample their inputs, every
level becomes X, `Reset(t)` is recorded, no phase runs. The tick count starts again (DEDUCED: the last reset tick is
number 0, log entry 5). -/
def resetTick (i : TickIn) (s : State) : State :=
  { State.reset with
    params := s.params
    cfgRowsM1Q := i.cfgRowsM1
    cfgLfQ := i.cfgLargeFont
    history := s.history ++ [.reset 0]
    inputs := s.inputs
    draws := s.draws }

/-- The start of a tick that is no reset tick: its number, and the outputs that follow from the start-of-tick registers
(R41, R42, R147); every pulse starts at 0. -/
def beginTick (s : State) : State :=
  { s with
    now := s.now + 1
    out := { rqReady := rqReady s.mode s.pk
             rsp := none
             evReady := false
             evInitError := false
             status := statusVec s
             ready := readyLevel s
             failed := failedLevel s
             closed := closedLevel s
             req := Pins.const none } }

/-- Whether a transaction in flight may already have brought its channel to level `b`: a WRITE to the level it writes (R76).
DESIGN CHOICE (log entry 16): R76 and U1 to U4 do not say what the level is while a CLOSE or an OPEN is in flight. Either
level is admitted then. -/
def inFlightLevel (op : PinOp) (b : Bool) : Bool :=
  match op with
  | .write v => decide (v = b)
  | .openPin => true
  | .closePin => true

/-- Whether the physical level of a channel may be `b` (U1 to U4): the recorded level when it is 0 or 1, either level when
it is X or REL; and while a transaction is in flight, the levels it may bring too (R76: "this is a race, and a claim must
admit both"). -/
def possibleLevel (s : State) (p : Chan) (b : Bool) : Bool :=
  match s.lvl.get p with
  | .low => !b || (hasBit s.pend p && inFlightLevel (s.txn.get p) b)
  | .high => b || (hasBit s.pend p && inFlightLevel (s.txn.get p) b)
  | .x => true
  | .rel => true

/-- Run a further part of a tick on the state an earlier part answers. -/
def andThen (o : Host.Outcome State Fault Refusal) (f : State → Host.Outcome State Fault Refusal) :
    Host.Outcome State Fault Refusal :=
  match o with
  | .next s => f s
  | .fault r => .fault r
  | .refused r => .refused r

end Sys2Proof.Machine
end

