-- ==== Sys2Proof/Machine/Close.lean ====
section
/-! DEFINITION. The request CLOSE (spec/45_close.md). -/

namespace Sys2Proof.Machine

/-- CLOSE (R270): admitted in READY and FAILED; on acceptance `h_word <- 0x3000; h_cmask <- opened; pk <- CLOSE;
upc <- 0; fault <- 0`. -/
def execClose (s : State) : Host.Outcome State Fault Refusal :=
  .next (request true readyOrFailed (loadClose (encode .close)) s)

end Sys2Proof.Machine
end

