-- ==== Sys2Proof/Machine/Frame.lean ====
section
/-! DEFINITION. The FrameEncoder's requests CMD and DATA (spec/42_frame_encoder.md). -/

namespace Sys2Proof.Machine

/-- CMD b[, S] (R192): on acceptance `h_word <- w; pk <- FRAME; upc <- 0; fault <- 0`. -/
def execCmd (b : Byte) (st : Bool) (s : State) : Host.Outcome State Fault Refusal :=
  .next (request true readyOnly (load .frame (encode (.cmd b st))) s)

/-- DATA b[, S] (R193): as CMD, with RS high in the word. -/
def execData (b : Byte) (st : Bool) (s : State) : Host.Outcome State Fault Refusal :=
  .next (request true readyOnly (load .frame (encode (.data b st))) s)

end Sys2Proof.Machine
end

