-- ==== Sys2Proof/Machine/Nibble.lean ====
section
/-! DEFINITION. The raw nibble request NIB (spec/41_nibblebus.md). -/

namespace Sys2Proof.Machine

/-- NIB v[, S] (R172): on acceptance `h_word <- w; pk <- NIB; upc <- 0; fault <- 0`. A value that is no 4-bit value is
InvalidValue (R102, R172). -/
def execNib (v : Byte) (st : Bool) (s : State) : Host.Outcome State Fault Refusal :=
  .next (request (Instr.nib v st).wellFormed readyOnly (load .nib (encode (.nib v st))) s)

end Sys2Proof.Machine
end

