-- ==== Sys2Proof/Machine/Dispatch.lean ====
section
/-! DEFINITION. One arm per request: the meaning of a word that phase 3 takes or turns away (R148). -/

namespace Sys2Proof.Machine

def exec (i : Instr) (s : State) : Host.Outcome State Fault Refusal :=
  match i with
  | .cmd b st => Sys2Proof.Machine.execCmd b st s
  | .data b st => Sys2Proof.Machine.execData b st s
  | .nib v st => Sys2Proof.Machine.execNib v st s
  | .close => Sys2Proof.Machine.execClose s

end Sys2Proof.Machine
end

