-- ==== Sys2Proof/Machine/Sequencer.lean ====
section
/-! DEFINITION. Phases 1 and 2 of a tick: sampling the pin responses (R142) and advancing the sequencer (R144). -/

namespace Sys2Proof.Machine

/-- Sample one channel: a response completes the outstanding transaction; with none outstanding it is ignored (R73, R74). -/
def sample (rsp : Pins (Option PinStatus)) (s : State) (p : Chan) : State :=
  match rsp.get p with
  | some st => if hasBit s.pend p then complete p st s else s
  | none => s

/-- Phase 1: the channels in ascending p (R142). -/
def phase1 (rsp : Pins (Option PinStatus)) (s : State) : State := Chan.all.foldl (sample rsp) s

/-- The part of R144 after the holds: every item started so far is complete. -/
def advance (s : State) : Host.Outcome State Fault Refusal :=
  if s.fault then .next (finish true s)
  else if s.upc.toNat = (prog s).length then .next (finish false s)
  else match (prog s)[s.upc.toNat]? with
    | some item => .next (startItem item s)
    | none => .fault .upcOutOfRange

/-- Phase 2 (R144). -/
def phase2 (s : State) : Host.Outcome State Fault Refusal :=
  if s.pk = .none then .next s
  else if s.pend ≠ 0b000000#6 then .next s
  else if 0 < s.wait ∧ 0 < s.wait - 1 then .next { s with wait := s.wait - 1 }
  else advance { s with wait := s.wait - 1 }

end Sys2Proof.Machine
end

