-- ==== Sys2Proof/Machine/Tick.lean ====
section
/-! DEFINITION. Phase 3, the host port (R147, R148), and the whole tick (R141). -/

namespace Sys2Proof.Machine

/-- Phase 3 (R148), with the start-of-tick `mode0` and `pk0`. A word is taken only when `rq_ready = 1`; INIT and CLOSED
answer NotReady before anything is decoded; an INVALID word answers InvalidValue; a decoded word has its meaning in exec. -/
def phase3 (rq : Option Word) (mode0 : Mode) (pk0 : Pk) (s : State) : Host.Outcome State Fault Refusal :=
  match rq with
  | none => .next s
  | some w =>
    if rqReady mode0 pk0 = false then .next s
    else if mode0 = .init ∨ mode0 = .closed then .next (raiseError .notReady s)
    else match decode w with
      | .error _ => .next (raiseError .invalidValue s)
      | .ok i => exec i s

/-- One tick (R141): a reset tick, or the three phases in order. Phase 3 reads `mode` and `pk` as they stood at the start.
DEDUCED (log entry 25): so after a Response in tick r the next word is taken in tick r + 1 at the earliest (R147, R347) and its
first transaction issued in tick r + 2 (R145, vector V100), where R342 and R344 say "the tick after" the Response. -/
def tick (i : TickIn) (s : State) : Host.Outcome State Fault Refusal :=
  if i.rst then .next (resetTick i s)
  else andThen (phase2 (phase1 i.rsp (beginTick s))) (phase3 i.rq s.mode s.pk)

/-- The inputs of the next tick: the oldest listed, or a free value once none is listed (log entry 1). -/
def nextInput (s : State) : TickIn :=
  match s.inputs with
  | i :: _ => i
  | [] => Config.envInput s.draws

/-- The state with the next tick's inputs taken off the list, or counted as drawn. -/
def dropInput (s : State) : State :=
  match s.inputs with
  | _ :: rest => { s with inputs := rest }
  | [] => { s with draws := s.draws + 1 }

/-- A tick's inputs that present one word and nothing else. -/
def presentWord (w : Word) : TickIn :=
  { rst := false, cfgRowsM1 := 0#2, cfgLargeFont := false, rq := some w, rsp := Pins.const none }

/-- The state in which the very next tick takes a word: the block idle in READY (FAILED stays FAILED, which also takes
words), nothing outstanding, no wait running, and the word presented first (log entry 12). -/
def placeWord (w : Word) (s : State) : State :=
  { s with
    mode := if s.mode = .failed then .failed else .ready
    pk := .none
    pend := 0b000000#6
    wait := 0
    inputs := presentWord w :: s.inputs }

end Sys2Proof.Machine
end

