-- ==== Sys2Proof/Machine/Step.lean ====
section
/-! DEFINITION. One step of the machine is one tick of the block on the next inputs (R8, R141). -/

namespace Sys2Proof.Machine

/-- One tick, on the inputs listed first or drawn freely. -/
def step (s : State) : Host.Outcome State Fault Refusal := tick (nextInput s) (dropInput s)

/-- `s` with the request word of an opcode-table row presented at the host port, so that the next step takes it. Bits above
`nbits` are 0. -/
def State.withFetchWord (s : State) (nbits w : Nat) : State := placeWord (BitVec.ofNat 16 (w % 2 ^ nbits)) s

end Sys2Proof.Machine
end

