-- ==== Sys2Proof/Machine/HostCommands.lean ====
section
/-! DEFINITION. The host-level commands (spec/43_host_commands.md): the requests each pseudo-instruction expands to and the
registers the host keeps. The block enforces none of it (R6, R210). -/

namespace Sys2Proof.Machine

/-- The two admitted values of the host parameter `ROW_OFFSET` (R213, C2, D28). -/
inductive RowTable where
  /-- `[0x00, 0x40, 0x10, 0x50]`, the default -/
  | later
  /-- `[0x00, 0x40, 0x14, 0x54]` -/
  | earlier
deriving DecidableEq, Repr

/-- `ROW_OFFSET` as a list, by row (R213). -/
def RowTable.offsets : RowTable → List Nat
  | .later => [0x00, 0x40, 0x10, 0x50]
  | .earlier => [0x00, 0x40, 0x14, 0x54]

/-- The host's configuration: its copy of the configured row count, kept as `rows - 1` so that it is one of 1 to 4 (R14),
and its row table. The defaults are rows = 1 (R14) and the later table (R213). -/
structure HostCfg where
  rowsM1 : BitVec 2 := 0#2
  table : RowTable := .later
deriving DecidableEq, Repr

/-- The host's `rows` (R213). -/
def HostCfg.rows (c : HostCfg) : Nat := c.rowsM1.toNat + 1

/-- `displayControl` and `displayMode` (R214). -/
structure HostRegs where
  displayOn : Bool
  cursorOn : Bool
  blinkOn : Bool
  leftToRight : Bool
  autoscrollOn : Bool
deriving DecidableEq, Repr

/-- "display on and cursor and blink off", "left-to-right and autoscroll off" (R214). -/
def HostRegs.initial : HostRegs :=
  { displayOn := true, cursorOn := false, blinkOn := false, leftToRight := true, autoscrollOn := false }

/-- A flag in place. -/
def flagBit (b : Bool) (m : Byte) : Byte := if b then m else 0x00#8

/-- `DC_BYTE = 0x08 | displayOn<<2 | cursorOn<<1 | blinkOn` (R214).
PRESUMED (log entry 17): the spec marks the bit positions as general knowledge (G1). -/
def dcByte (r : HostRegs) : Byte :=
  0x08#8 ||| flagBit r.displayOn 0x04#8 ||| flagBit r.cursorOn 0x02#8 ||| flagBit r.blinkOn 0x01#8

/-- `EM_BYTE = 0x04 | leftToRight<<1 | autoscrollOn` (R214).
PRESUMED (log entry 17): the spec marks the bit positions as general knowledge (G1). -/
def emByte (r : HostRegs) : Byte :=
  0x04#8 ||| flagBit r.leftToRight 0x02#8 ||| flagBit r.autoscrollOn 0x01#8

/-- The pseudo-instructions (R112), and a plain request of the host's own. A PRINT text is a sequence of code points.
DESIGN CHOICE (log entry 23): spec/43_host_commands.md has no plain request; `raw` is the model's. -/
inductive HostOp where
  | clear
  | home
  | setCur (col : Nat) (row : Int)
  | display
  | noDisplay
  | cursor
  | noCursor
  | blink
  | noBlink
  | scrollL
  | scrollR
  | ltr
  | rtl
  | autoscroll
  | noAutoscroll
  | print (text : List Nat)
  | raw (i : Instr)
deriving DecidableEq, Repr

/-- The host's registers once the operation has succeeded (R215, R216); the other operations mutate none.
DESIGN CHOICE (log entry 23): `raw` mutates none either, so after a raw CMD with a display-control or entry-mode byte the
registers no longer reflect the last value written. -/
def regsAfter (op : HostOp) (r : HostRegs) : HostRegs :=
  match op with
  | .display => { r with displayOn := true }
  | .noDisplay => { r with displayOn := false }
  | .cursor => { r with cursorOn := true }
  | .noCursor => { r with cursorOn := false }
  | .blink => { r with blinkOn := true }
  | .noBlink => { r with blinkOn := false }
  | .ltr => { r with leftToRight := true }
  | .rtl => { r with leftToRight := false }
  | .autoscroll => { r with autoscrollOn := true }
  | .noAutoscroll => { r with autoscrollOn := false }
  | .clear => r
  | .home => r
  | .setCur _ _ => r
  | .scrollL => r
  | .scrollR => r
  | .print _ => r
  | .raw _ => r

/-- The requests an operation presents, in order, and whether it then fails InvalidValue at the host. -/
structure Plan where
  requests : List Instr
  thenInvalid : Bool
deriving DecidableEq, Repr

/-- `clamp(row, 0, rows - 1)` (R213). `rows` is at least 1 (R14). -/
def clampRow (rows : Nat) (row : Int) : Nat := min row.toNat (rows - 1)

/-- `byte = 0x80 | (col + ROW_OFFSET[r])`, an unbounded integer (R213). The clamped row is one of 0 to 3, so both tables have
an entry for it (`clampRow_in_table`). -/
def setCurByte (c : HostCfg) (col : Nat) (row : Int) : Nat :=
  0x80 ||| (col + (c.table.offsets[clampRow c.rows row]?).getD 0)

/-- The first index PRINT sends, for a text of length L (R218). -/
def printStart (len : Nat) : Nat :=
  if 80 < len then (if 1 < len / 80 then (len / 80 - 1) * 80 else 0) else 0

/-- The characters PRINT sends are checked one at a time (R218, D29). -/
def printPlan (chars : List Nat) : Plan :=
  { requests := (chars.takeWhile fun c => decide (c ≤ 0xFF)).map fun c => .data (BitVec.ofNat 8 c) false
    thenInvalid := chars.any fun c => decide (0xFF < c) }

/-- The expansion of each operation (R211 to R218). -/
def plan (c : HostCfg) (r : HostRegs) (op : HostOp) : Plan :=
  match op with
  | .clear => { requests := [.cmd 0x01#8 true], thenInvalid := false }
  | .home => { requests := [.cmd 0x02#8 true], thenInvalid := false }
  | .setCur col row =>
    if 0xFF < setCurByte c col row then { requests := [], thenInvalid := true }
    else { requests := [.cmd (BitVec.ofNat 8 (setCurByte c col row)) false], thenInvalid := false }
  | .display => { requests := [.cmd (dcByte (regsAfter op r)) false], thenInvalid := false }
  | .noDisplay => { requests := [.cmd (dcByte (regsAfter op r)) false], thenInvalid := false }
  | .cursor => { requests := [.cmd (dcByte (regsAfter op r)) false], thenInvalid := false }
  | .noCursor => { requests := [.cmd (dcByte (regsAfter op r)) false], thenInvalid := false }
  | .blink => { requests := [.cmd (dcByte (regsAfter op r)) false], thenInvalid := false }
  | .noBlink => { requests := [.cmd (dcByte (regsAfter op r)) false], thenInvalid := false }
  | .scrollL => { requests := [.cmd 0x18#8 false], thenInvalid := false }
  | .scrollR => { requests := [.cmd 0x1C#8 false], thenInvalid := false }
  | .ltr => { requests := [.cmd (emByte (regsAfter op r)) false], thenInvalid := false }
  | .rtl => { requests := [.cmd (emByte (regsAfter op r)) false], thenInvalid := false }
  | .autoscroll => { requests := [.cmd (emByte (regsAfter op r)) false], thenInvalid := false }
  | .noAutoscroll => { requests := [.cmd (emByte (regsAfter op r)) false], thenInvalid := false }
  | .print text => printPlan (text.drop (printStart text.length))
  | .raw i => { requests := [i], thenInvalid := false }

end Sys2Proof.Machine
end

