-- ==== Sys2Proof/Machine/Driver.lean ====
section
/-! DEFINITION. The host software as a machine beside the block: the OperationQueue (R222) feeding the host port one request
at a time (R210), with the host's registers (R214) and signals (R221). It is outside the block (R6). -/

namespace Sys2Proof.Machine

/-- The host's observable moments (R221). -/
inductive HostSignal where
  | ready
  | printed (text : List Nat)
  | clear
  | home
  | error (st : RspStatus)
deriving DecidableEq, Repr

/-- An operation in progress: the requests not yet answered, oldest first, and whether the first has been accepted. -/
structure Running where
  op : HostOp
  rest : List Instr
  thenInvalid : Bool
  awaiting : Bool
deriving DecidableEq, Repr

/-- The host software's state. -/
structure Driver where
  cfg : HostCfg
  regs : HostRegs
  /-- the unbounded FIFO, keyed by submission order (R222) -/
  queue : List HostOp
  cur : Option Running
  signals : List HostSignal
deriving DecidableEq, Repr

/-- The signal an operation's success fires (R221). -/
def successSignals : HostOp → List HostSignal
  | .print text => [.printed text]
  | .clear => [.clear]
  | .home => [.home]
  | _ => []

/-- The operation in progress ends: on success its registers are updated (R214), and either way its signals fire.
DESIGN CHOICE (log entry 22): R221 ties `error` to a non-OK Response. The model fires `error InvalidValue` also for a failure
the host decides itself, with no Response (SETCUR above 0xFF, R213; a PRINT code point above 255, R218). -/
def Driver.conclude (d : Driver) (op : HostOp) (st : RspStatus) : Driver :=
  if st = .ok then
    { d with regs := regsAfter op d.regs, cur := none, signals := d.signals ++ successSignals op }
  else { d with cur := none, signals := d.signals ++ [.error st] }

/-- All requests of an operation have answered OK: it succeeds, or fails InvalidValue at the host (R213, R218). -/
def Driver.settleOp (d : Driver) (r : Running) : Driver :=
  if r.rest = [] then d.conclude r.op (if r.thenInvalid then .invalidValue else .ok)
  else { d with cur := some { r with awaiting := false } }

/-- Take the next queued operation when none is in progress and INIT is over (R222, R334): in READY it runs; in FAILED and
CLOSED the block answers NotReady, "calling any operation after `close()` fails with `NotReady`". -/
def Driver.fetch (d : Driver) (initOver : Bool) : Driver :=
  match d.cur, d.queue, initOver with
  | none, op :: q, true =>
    let p := plan d.cfg d.regs op
    { d with queue := q }.settleOp { op := op, rest := p.requests, thenInvalid := p.thenInvalid, awaiting := false }
  | _, _, _ => d

/-- The word the host drives: the first unanswered request, held until it is accepted (R44). -/
def Driver.word (d : Driver) : Option Word :=
  match d.cur with
  | some r => if r.awaiting then none else r.rest.head?.map encode
  | none => none

/-- What the host makes of a tick's outputs: an acceptance, then a Response, then the Ready pulse. -/
def Driver.observe (d : Driver) (o : TickOut) : Driver :=
  let d1 : Driver :=
    match d.cur with
    | some r =>
      let taken := r.awaiting || (d.word.isSome && o.rqReady)
      match o.rsp with
      | some st =>
        if taken then
          if st = .ok then d.settleOp { r with rest := r.rest.tail, awaiting := false }
          else d.conclude r.op st
        else d
      | none => { d with cur := some { r with awaiting := taken } }
    | none => d
  if o.evReady then { d1 with signals := d1.signals ++ [.ready] } else d1

/-- A host with nothing submitted and its registers at their defaults (R214). -/
def Driver.start (c : HostCfg) : Driver :=
  { cfg := c, regs := HostRegs.initial, queue := [], cur := none, signals := [] }

/-- The host's copies when the block is reset: defaults, and pending operations lost (R333). Its `rows` follow the
configuration the block samples in the reset tick: "The host's `rows` must equal `cfg_rows_m1 + 1` as the block sampled it at
reset" (R213; log entry 24). -/
def Driver.resetHost (rowsM1 : BitVec 2) (d : Driver) : Driver :=
  { d with cfg := { d.cfg with rowsM1 := rowsM1 }, regs := HostRegs.initial, queue := [], cur := none }

/-- The host submits an operation (R222). -/
def Driver.submit (d : Driver) (op : HostOp) : Driver := { d with queue := d.queue ++ [op] }

/-- The driver and the block together. -/
structure System where
  driver : Driver
  block : State
deriving DecidableEq, Repr

/-- The host and the block right after reset. -/
def System.reset : System := { driver := Driver.start { rowsM1 := State.reset.cfgRowsM1Q }, block := State.reset }

/-- The host's duty of R213: its row count is the one the block sampled at reset. -/
def System.rowsAgree (y : System) : Prop := y.driver.cfg.rows = y.block.cfgRowsM1Q.toNat + 1

/-- The driver that presents the tick's word: reset with the block (R333), or with the next operation fetched (R222). -/
def System.presenter (i : TickIn) (y : System) : Driver :=
  if i.rst then y.driver.resetHost i.cfgRowsM1 else y.driver.fetch (decide (y.block.mode ≠ .init))

/-- One tick of both: the host drives its word, the block ticks, the host reads the outputs. The `rq` of the input is the
driver's, whatever the given input holds. -/
def systemTick (i : TickIn) (y : System) : Host.Outcome System Fault Refusal :=
  let d := y.presenter i
  match tick { i with rq := d.word } y.block with
  | .next s => .next { driver := d.observe s.out, block := s }
  | .fault r => .fault r
  | .refused r => .refused r

end Sys2Proof.Machine
end

