-- ==== Sys2Proof/Machine/Monitor.lean ====
section
/-! DEFINITION. Reading the event history: what its events say of the pin record, and the enable strobes it shows
(spec/10_state.md R48: "The history is the observation a claim is stated over"). -/

namespace Sys2Proof.Machine

/-- What the controller's lines carried when an E-high write completed OK: RS and the four data lines (R197: "At the first,
the data lines carry `b[7:4]`").
DESIGN CHOICE (log entry 21): the strobe is counted by the E-high write alone. One that answers FAULT makes no strobe of the
list, though "The controller may or may not have latched" the nibble then (R196); and one that answers OK makes a strobe
even where the E-low write after it answers FAULT, though E may still be high then (R196) and a fault in an E write leaves it
unknown whether a strobe happened (R341). -/
structure Strobe where
  rs : Lvl
  d0 : Lvl
  d1 : Lvl
  d2 : Lvl
  d3 : Lvl
deriving DecidableEq, Repr

/-- The lines of a pin record, as a strobe sees them. -/
def strobeOf (l : Pins Lvl) : Strobe := { rs := l.rs, d0 := l.d0, d1 := l.d1, d2 := l.d2, d3 := l.d3 }

/-- A nibble on the data lines under a given RS level (R77). -/
def nibbleStrobe (rs : Lvl) (v : Nibble) : Strobe :=
  { rs := rs
    d0 := Lvl.ofBool (lineBit v 0)
    d1 := Lvl.ofBool (lineBit v 1)
    d2 := Lvl.ofBool (lineBit v 2)
    d3 := Lvl.ofBool (lineBit v 3) }

/-- What a reader of the history knows after some events. -/
structure Replay where
  pend : ChanSet
  opened : ChanSet
  txn : Pins PinOp
  lvl : Pins Lvl
  strobes : List Strobe
deriving DecidableEq, Repr

/-- Before any event: nothing outstanding or open, every level unknown (R49). -/
def Replay.start : Replay :=
  { pend := 0b000000#6, opened := 0b000000#6, txn := Pins.const .openPin, lvl := Pins.const .x, strobes := [] }

/-- One event read: R72 for an issue, R73 and R76 for a completion, R330 for a reset. Only an E-high write that answers OK
adds a strobe, whatever the E-low write after it answers (DESIGN CHOICE, log entry 21). -/
def Replay.read (m : Replay) : Event → Replay
  | .reset _ => { Replay.start with strobes := m.strobes }
  | .issue _ p op => { m with pend := setBit m.pend p, txn := m.txn.set p op }
  | .complete _ p st =>
    let lvl := m.lvl.set p (levelAfter (m.txn.get p) st (m.lvl.get p))
    { m with
      pend := clearBit m.pend p
      opened := openedAfter (m.txn.get p) st p m.opened
      lvl := lvl
      strobes := if p = .e ∧ m.txn.get p = .write true ∧ st = .ok then m.strobes ++ [strobeOf lvl] else m.strobes }
  | .response _ _ => m
  | .ready _ => m
  | .initError _ _ => m

/-- A whole history read, oldest event first. -/
def replay (h : List Event) : Replay := h.foldl Replay.read Replay.start

/-- The strobes a history shows. -/
def strobes (h : List Event) : List Strobe := (replay h).strobes

/-- How many Response events a history holds (R296). -/
def responses (h : List Event) : Nat :=
  h.countP fun ev => match ev with | .response _ _ => true | _ => false

/-- How many Issue events a history holds. -/
def issues (h : List Event) : Nat :=
  h.countP fun ev => match ev with | .issue _ _ _ => true | _ => false

end Sys2Proof.Machine
end

