-- ==== Sys2Proof/Machine/Run.lean ====
section
/-! DEFINITION. Runs of several ticks on given inputs, and the inputs of a backend that answers every group OK after a given
latency (R347 of spec/70_reset_and_hazards.md). -/

namespace Sys2Proof.Machine

/-- The ticks of a list of inputs, one after another. -/
def runTicks : List TickIn → State → Host.Outcome State Fault Refusal
  | [], s => .next s
  | i :: rest, s => andThen (tick i s) (runTicks rest)

/-- The state when the running program has finished: ticks are taken until `pk = NONE`; `none` when the inputs run out
first or a tick stops. -/
def runToIdle : List TickIn → State → Option State
  | ins, s =>
    if s.pk = .none then some s
    else match ins with
      | [] => none
      | i :: rest =>
        match tick i s with
        | .next s' => runToIdle rest s'
        | _ => none

/-- A tick in which the environment does nothing. -/
def quiet : TickIn :=
  { rst := false, cfgRowsM1 := 0#2, cfgLargeFont := false, rq := none, rsp := Pins.const none }

/-- A tick in which every outstanding transaction answers OK (a channel with none ignores it, R74). -/
def answerAll : TickIn := { quiet with rsp := Pins.const (some .ok) }

/-- The inputs from the start of a program's first item to its finish: a group of latency L takes L ticks, the last of them
answering all its members, and a `Wait(n)` takes n. A group beyond the listed latencies has latency 1. -/
def itemInputs : List Item → List Nat → List TickIn
  | [], _ => []
  | .wait n :: items, ls => List.replicate n quiet ++ itemInputs items ls
  | .group _ :: items, [] => answerAll :: itemInputs items []
  | .group _ :: items, l :: ls => List.replicate (l - 1) quiet ++ answerAll :: itemInputs items ls

/-- The inputs from the tick after acceptance to the finish: the first of them starts the first item (R145). -/
def programInputs (items : List Item) (ls : List Nat) : List TickIn := quiet :: itemInputs items ls

/-- How many groups a program has. -/
def groupCount (items : List Item) : Nat :=
  items.countP fun it => match it with | .group _ => true | .wait _ => false

end Sys2Proof.Machine
end

