-- ==== Sys2Proof/Safety.lean ====
section
/-! DEFINITION. The states a run can reach, as one invariant, and what a safe step is. -/

namespace Sys2Proof.Machine

/-- Which programs run in which mode (R303): INIT runs the INIT program only; READY runs CMD, DATA, NIB and CLOSE; FAILED
runs CLOSE; CLOSED runs nothing. -/
def legalPair (m : Mode) (k : Pk) : Bool :=
  match m with
  | .init => decide (k = .init)
  | .ready => decide (k ≠ .init)
  | .failed => decide (k = .none ∨ k = .close)
  | .closed => decide (k = .none)

/-- The held word is one that loads the running program (R148). -/
def heldFits (k : Pk) (w : Word) : Prop :=
  match k with
  | .nib => ∃ v st, decode w = .ok (.nib v st)
  | .frame => ∃ b st, decode w = .ok (.cmd b st) ∨ decode w = .ok (.data b st)
  | .close => decode w = .ok .close
  | .init => True
  | .none => True

/-- The item started last, while a program runs. -/
def currentItem (s : State) : Option Item := if s.upc = 0#7 then none else (prog s)[s.upc.toNat - 1]?

/-- The invariant of the block's states. -/
structure BlockInv (s : State) : Prop where
  /-- the parameters meet R11's and R13's conditions on the counts -/
  params : Config.legal s.params = true
  /-- R303 -/
  modePk : legalPair s.mode s.pk = true
  /-- R145: `pk = NONE` only with nothing outstanding and no wait -/
  idle : s.pk = .none → s.pend = 0#6 ∧ s.wait = 0
  /-- R33: the legal range of `upc` -/
  upcRange : s.pk ≠ .none → s.upc.toNat ≤ (prog s).length
  /-- R37: `wait` fits its register -/
  waitRange : s.wait < 2 ^ s.params.wWait
  /-- R37, R144: `wait` is nonzero only while a `Wait(n)` item runs, with nothing outstanding and no fault latched -/
  waiting : 0 < s.wait → s.pend = 0#6 ∧ s.fault = false ∧ ∃ n, currentItem s = some (.wait n) ∧ s.wait ≤ n
  /-- R142: an outstanding transaction is a member of the group started last -/
  outstanding : ∀ p, hasBit s.pend p = true → ∃ ops, currentItem s = some (.group ops) ∧ ops.get p = some (s.txn.get p)
  /-- R148 -/
  held : heldFits s.pk s.hWord
  /-- R40: `istate` in INIT follows R245's schedule -/
  istateInit : s.mode = .init → s.istate = icode (s.upc.toNat - 1)
  /-- R40, R247: `istate` is 8 in READY -/
  istateReady : s.mode = .ready → s.istate = .ready
  /-- before a program's first item starts no fault is latched (R145, R49) -/
  fresh : s.pk ≠ .none → s.upc = 0#7 → s.fault = false
  /-- before INIT's first item nothing is open (R49) -/
  initFresh : s.mode = .init → s.upc = 0#7 → s.opened = 0#6
  /-- R38, R241: from INIT's first item on, each channel is open, or its open is outstanding, or a fault is latched -/
  initOpens : s.mode = .init → s.upc ≠ 0#7 → ∀ p, hasBit s.opened p = true ∨ s.fault = true ∨ (s.upc = 1#7 ∧ hasBit s.pend p = true)
  /-- every channel is held in READY until a CLOSE runs (R248) -/
  readyOpen : s.mode = .ready → s.pk ≠ .close → s.opened = 0b111111#6
  /-- R271, R273: a CLOSE releases what was open when it was accepted, each channel by one outstanding close -/
  closing : s.pk = .close → ∀ p, hasBit s.opened p = true → hasBit s.hCmask p = true ∧ (s.upc = 0#7 ∨ hasBit s.pend p = true)
  /-- R270: nothing is open in CLOSED -/
  closedReleased : s.mode = .closed → s.opened = 0#6

/-- The history tells the pin record, the outstanding transactions and the open channels (R48, R72, R73, R76). -/
structure HistoryAgrees (s : State) : Prop where
  pend : (replay s.history).pend = s.pend
  opened : (replay s.history).opened = s.opened
  txn : (replay s.history).txn = s.txn
  lvl : (replay s.history).lvl = s.lvl

/-- A safe step answers a next state: the machine does not stop. -/
def SafeStep (s : State) : Prop := ∃ t, step s = .next t

/-- `t` is `u` with the Response of a rejected word and nothing else (R291, R294, R297: no transaction, no register). -/
def RejectedWith (k : RspStatus) (u t : State) : Prop :=
  t = { u with history := u.history ++ [.response u.now k], out := { u.out with rsp := some k } }

/-- A tick with a word that is rejected is the tick without the word, and the Response. -/
def TickRejects (k : RspStatus) (i : TickIn) (s : State) : Prop :=
  ∃ u t, tick { i with rq := none } s = .next u ∧ tick i s = .next t ∧ RejectedWith k u t

/-- One if a request's program is running: its Response is still owed (R296). -/
def owed (s : State) : Nat := if s.pk = .none ∨ s.pk = .init then 0 else 1

/-- One if the block takes a word in this tick (R44, R147). -/
def taken (i : TickIn) (s : State) : Nat := if i.rq.isSome = true ∧ rqReady s.mode s.pk = true then 1 else 0

/-- `t`'s history is `s`'s with these events appended. -/
def Appends (s t : State) (evs : List Event) : Prop := t.history = s.history ++ evs

/-- No reset in a list of inputs. -/
def NoReset (ins : List TickIn) : Prop := ∀ i ∈ ins, i.rst = false

end Sys2Proof.Machine
end

