-- ==== Sys2Proof/Certificates/Slice0/Obligations.lean ====
section
/-! DEFINITION. The statements about the block, for the provers. Each docstring names the rule of spec/ it comes from. -/

open Sys2Proof Sys2Proof.Machine

/-! ## The encoding (spec/30_encoding.md) -/

/-- Every well-formed request is what its own word decodes to (R104 to R108). -/
def Obligations.DecodeOfEncodedRequest : Prop :=
  ∀ i : Instr, i.wellFormed = true → decode (encode i) = .ok i

/-- A word that decodes is the word of a well-formed request, the one it decodes to: each word has one meaning. -/
def Obligations.EncodeOfDecodedWord : Prop :=
  ∀ (w : Word) (i : Instr), decode w = .ok i → encode i = w ∧ i.wellFormed = true

/-- Words written out from the encoding columns of spec/opcode_table.json, and INVALID words of
spec/95_test_vectors.md V7 to V20. -/
def Obligations.WrittenWordsDecode : Prop :=
  decode 0b0001000100000001#16 = .ok (.cmd 0x01#8 true) ∧
  decode 0b0001001001000001#16 = .ok (.data 0x41#8 false) ∧
  decode 0b0010000100000101#16 = .ok (.nib 0x05#8 true) ∧
  decode 0b0011000000000000#16 = .ok .close ∧
  decode 0x1400#16 = .error .reservedBits ∧
  decode 0x2010#16 = .error .nibNotFourBits ∧
  decode 0x2205#16 = .error .nibRegisterSelect ∧
  decode 0x3100#16 = .error .closeOperand ∧
  decode 0x0000#16 = .error .reservedOp ∧
  decode 0x4000#16 = .error .reservedOp

/-- R104 to R107: the legal words of each row are the ranges the rules give. -/
def Obligations.LegalWordRanges : Prop :=
  ∀ w : Word,
    ((∃ b st, decode w = .ok (.cmd b st)) ↔ 0x1000 ≤ w.toNat ∧ w.toNat ≤ 0x11FF) ∧
    ((∃ b st, decode w = .ok (.data b st)) ↔ 0x1200 ≤ w.toNat ∧ w.toNat ≤ 0x13FF) ∧
    ((∃ v st, decode w = .ok (.nib v st)) ↔
      (0x2000 ≤ w.toNat ∧ w.toNat ≤ 0x200F) ∨ (0x2100 ≤ w.toNat ∧ w.toNat ≤ 0x210F)) ∧
    (decode w = .ok .close ↔ w.toNat = 0x3000)

/-- R109: the INVALID words are those of its four classes. -/
def Obligations.InvalidWordClasses : Prop :=
  ∀ w : Word, (∃ r, decode w = .error r) ↔
    (wordOp w = 0#4 ∨ 4 ≤ (wordOp w).toNat) ∨ wordRsv w ≠ 0#2 ∨
    (wordOp w = 2#4 ∧ (wordRs w = true ∨ w.extractLsb' 4 4 ≠ 0#4)) ∨ (wordOp w = 3#4 ∧ w ≠ 0x3000#16)

/-! ## A step runs the decoded word (spec/40_sequencer.md) -/

/-- R147, R148: in READY or FAILED with no program running, the step that a legal word is presented in is exec of the
decoded request, at the state in which the tick has begun and the pin responses are sampled. -/
def Obligations.StepRunsDecodedWord : Prop :=
  ∀ (s : State) (w : Word) (i : Instr),
    (nextInput s).rst = false → (nextInput s).rq = some w → decode w = .ok i →
    s.pk = .none → (s.mode = .ready ∨ s.mode = .failed) →
    step s = exec i (phase1 (nextInput s).rsp (beginTick (dropInput s)))

/-- The step after a word has been placed runs exactly that word's request (the placing is the model's own, log entry 12). -/
def Obligations.StepRunsPlacedWord : Prop :=
  ∀ (s : State) (nbits w : Nat) (i : Instr),
    decodeTableWord nbits w = some i →
    step (s.withFetchWord nbits w) = exec i (beginTick { s.withFetchWord nbits w with inputs := s.inputs })

/-! ## What each request loads, and that nothing else changes -/

/-- CMD in READY with no program running (R192): exactly `h_word`, `pk`, `upc` and `fault` are written, and the program
loaded is FRAME(b, 0) ++ SETTLE(S). -/
def Obligations.CmdLoadsCommandFrame : Prop :=
  ∀ (b : Byte) (st : Bool) (s : State), s.mode = .ready → s.pk = .none →
    ∃ t, exec (.cmd b st) s = .next t ∧
      t = { s with
            hWord := 0x1000#16 ||| (if st then 0x0100#16 else 0x0000#16) ||| b.setWidth 16
            pk := .frame, upc := 0#7, fault := false } ∧
      prog t = frame s.params b false ++ settle s.params st

/-- DATA in READY with no program running (R193): as CMD, and the program is FRAME(b, 1) ++ SETTLE(S). -/
def Obligations.DataLoadsDataFrame : Prop :=
  ∀ (b : Byte) (st : Bool) (s : State), s.mode = .ready → s.pk = .none →
    ∃ t, exec (.data b st) s = .next t ∧
      t = { s with
            hWord := 0x1200#16 ||| (if st then 0x0100#16 else 0x0000#16) ||| b.setWidth 16
            pk := .frame, upc := 0#7, fault := false } ∧
      prog t = frame s.params b true ++ settle s.params st

/-- NIB of a 4-bit value in READY with no program running (R172): exactly `h_word`, `pk`, `upc` and `fault` are written, and
the program is NIBBLE(v) ++ SETTLE(S). -/
def Obligations.NibLoadsNibble : Prop :=
  ∀ (v : Byte) (st : Bool) (s : State), s.mode = .ready → s.pk = .none → v.toNat < 16 →
    ∃ t, exec (.nib v st) s = .next t ∧
      t = { s with
            hWord := 0x2000#16 ||| (if st then 0x0100#16 else 0x0000#16) ||| v.setWidth 16
            pk := .nib, upc := 0#7, fault := false } ∧
      prog t = nibble s.params (v.setWidth 4) ++ settle s.params st

/-- THE MODEL'S OWN (log entry 13, DEDUCED): exec of a NIB term whose value is no 4-bit value answers InvalidValue in READY
and FAILED, and nothing else changes. No word decodes to such a term; the spec's own case, a word that decodes to INVALID, is
InvalidValueForInvalidWord. -/
def Obligations.NibRejectsWideValue : Prop :=
  ∀ (v : Byte) (st : Bool) (s : State), (s.mode = .ready ∨ s.mode = .failed) → s.pk = .none → 16 ≤ v.toNat →
    ∃ t, exec (.nib v st) s = .next t ∧ RejectedWith .invalidValue s t

/-- CLOSE in READY or FAILED with no program running (R270): exactly `h_word`, `h_cmask`, `pk`, `upc` and `fault` are
written, `h_cmask` with the open channels, and the program is CLOSE_PROG of them. -/
def Obligations.CloseLoadsRelease : Prop :=
  ∀ s : State, (s.mode = .ready ∨ s.mode = .failed) → s.pk = .none →
    ∃ t, exec .close s = .next t ∧
      t = { s with hWord := 0x3000#16, hCmask := s.opened, pk := .close, upc := 0#7, fault := false } ∧
      prog t = closeProg s.opened

/-- Where exec turns a request away: NotReady in INIT and CLOSED (R297) and, for CMD, DATA and a legal NIB, in FAILED with no
program running (R294); and while a program runs the word is not taken and nothing changes (R147). -/
def Obligations.RequestsTurnedAway : Prop :=
  ∀ (i : Instr) (s : State),
    ((s.mode = .init ∨ s.mode = .closed) → ∃ t, exec i s = .next t ∧ RejectedWith .notReady s t) ∧
    (s.mode = .failed → s.pk = .none → i.wellFormed = true → i ≠ .close →
      ∃ t, exec i s = .next t ∧ RejectedWith .notReady s t) ∧
    ((s.mode = .ready ∨ s.mode = .failed) → s.pk ≠ .none → exec i s = .next s)

/-! ## The host port -/

/-- R297: in INIT and CLOSED the tick with a word, legal or not, is the tick without it and Response(NotReady). -/
def Obligations.NotReadyInInitAndClosed : Prop :=
  ∀ (s : State) (i : TickIn) (w : Word), BlockInv s → i.rst = false → i.rq = some w →
    (s.mode = .init ∨ s.mode = .closed) → TickRejects .notReady i s

/-- R294: in FAILED with no program running a legal word other than CLOSE gets NotReady and touches nothing. -/
def Obligations.NotReadyInFailed : Prop :=
  ∀ (s : State) (i : TickIn) (w : Word) (r : Instr), BlockInv s → i.rst = false → i.rq = some w →
    s.mode = .failed → s.pk = .none → decode w = .ok r → r ≠ .close → TickRejects .notReady i s

/-- R291: in READY or FAILED an accepted word that decodes to INVALID gets InvalidValue and changes no register. -/
def Obligations.InvalidValueForInvalidWord : Prop :=
  ∀ (s : State) (i : TickIn) (w : Word) (r : DecodeReject), BlockInv s → i.rst = false → i.rq = some w →
    (s.mode = .ready ∨ s.mode = .failed) → s.pk = .none → decode w = .error r → TickRejects .invalidValue i s

/-- R147: `rq_ready` of every tick, and a word presented in a tick with `rq_ready = 0` changes nothing. -/
def Obligations.WordTakenOnlyWhenReady : Prop :=
  ∀ (s t : State) (i : TickIn), tick i s = .next t →
    (t.out.rqReady = true ↔ i.rst = false ∧ (s.pk = .none ∨ s.mode = .init)) ∧
    (t.out.rqReady = false → tick { i with rq := none } s = .next t)

/-- R108, R34: `h_word` takes an accepted word whose decode is executed, and outside reset ticks it changes only to such a
word: one that an idle READY block decodes, or CLOSE in an idle FAILED block. -/
def Obligations.HeldWordIsLastExecuted : Prop :=
  ∀ (s t : State) (i : TickIn), BlockInv s → i.rst = false → tick i s = .next t →
    (∀ (w : Word) (r : Instr), i.rq = some w → decode w = .ok r → s.pk = .none →
      (s.mode = .ready ∨ (s.mode = .failed ∧ r = .close)) → t.hWord = w ∧ t.pk ≠ .none) ∧
    (t.hWord ≠ s.hWord → s.pk = .none ∧ i.rq = some t.hWord ∧
      ∃ r, decode t.hWord = .ok r ∧ (s.mode = .ready ∨ (s.mode = .failed ∧ r = .close)))

/-- R145, R144: a load clears `upc` and `fault`, captures `h_cmask` for CLOSE, finds `wait` and `pend` at 0 and issues nothing;
the first item starts in phase 2 of the next tick. And every item starts so: in a tick whose phase 1 leaves the program with
nothing outstanding, a wait of at most 1, no fault latched and an item left, phase 2 starts the item `upc` names, which counts
`upc` on, writes `istate` in INIT, and issues its group or loads its count; phase 3 follows. `u` is the state after phase 1.
With legal parameters a wait loads its count as it is (R143). THE MODEL'S OWN: that a count which does not fit the counter loses
its high bits is log entry 7 (DEDUCED). -/
def Obligations.LoadedProgramStartsNextTick : Prop :=
  (∀ (s t : State) (r : Instr), BlockInv s → s.pk = .none → exec r s = .next t → t.pk ≠ .none →
    t.upc = 0#7 ∧ t.fault = false ∧ t.wait = 0 ∧ t.pend = 0#6 ∧ t.history = s.history ∧
    (r = .close → t.hCmask = s.opened) ∧
    ∀ (i : TickIn) (item : Item), i.rst = false → i.rq = none → (prog t)[0]? = some item →
      tick i t = .next (startItem item (beginTick t))) ∧
  ∀ (s u : State) (i : TickIn) (item : Item), i.rst = false → s.pk ≠ .none → u = phase1 i.rsp (beginTick s) →
    u.pend = 0#6 → u.wait ≤ 1 → u.fault = false → (prog u)[u.upc.toNat]? = some item →
    ∃ v, v = startItem item { u with wait := 0 } ∧ tick i s = phase3 i.rq s.mode s.pk v ∧
      v.upc = u.upc + 1#7 ∧ v.istate = (if u.pk = .init then icode u.upc.toNat else u.istate) ∧
      match item with
      | .group ops => v.wait = 0 ∧ (∀ p, hasBit v.pend p = (ops.get p).isSome) ∧
          v.history = u.history ++ (Chan.all.filter fun p => (ops.get p).isSome).map
            (fun p => Event.issue u.now p ((ops.get p).getD .openPin))
      | .wait n => (Config.legal u.params = true → v.wait = n) ∧ v.wait = n % 2 ^ u.params.wWait ∧ v.pend = 0#6 ∧
          v.history = u.history

/-- R296, R44: every accepted word gets exactly one Response, in the tick it is accepted or a later one; outside reset
ticks, Responses given and Responses owed together grow by one for each accepted word. -/
def Obligations.OneResponsePerAcceptedWord : Prop :=
  ∀ (s t : State) (i : TickIn), BlockInv s → i.rst = false → tick i s = .next t →
    responses t.history + owed t = responses s.history + owed s + taken i s

/-- R149, R345: the events of one tick are the Complete events, then those of phase 2, then at most one Response of phase 3;
and a finish and an acceptance do not both answer in one tick. -/
def Obligations.SameTickEventOrder : Prop :=
  ∀ (s t : State) (i : TickIn), BlockInv s → i.rst = false → tick i s = .next t →
    ∃ cs mid fin, Appends s t (cs ++ mid ++ fin) ∧
      cs = (Chan.all.filter fun p => hasBit s.pend p && (i.rsp.get p).isSome).map
        (fun p => Event.complete t.now p ((i.rsp.get p).getD .ok)) ∧
      ((∃ ops : Pins (Option PinOp), mid = (Chan.all.filter fun p => (ops.get p).isSome).map
          fun p => Event.issue t.now p ((ops.get p).getD .openPin)) ∨
        mid = [.ready t.now] ∨ mid = [.initError t.now .pinFault] ∨
        ((mid = [.response t.now .ok] ∨ mid = [.response t.now .pinFault]) ∧ fin = [])) ∧
      (fin = [] ∨ fin = [.response t.now .notReady] ∨ fin = [.response t.now .invalidValue])

/-- R296: the one-tick pulses. In every tick that is no reset tick, `rsp_valid` with a status, `ev_ready` and `ev_init_error`
are driven exactly when the tick records the event, with that status, and there is at most one Response. -/
def Obligations.PulseOutputs : Prop :=
  ∀ (s t : State) (i : TickIn), BlockInv s → i.rst = false → tick i s = .next t → ∃ evs, Appends s t evs ∧
    (∀ st, t.out.rsp = some st ↔ Event.response t.now st ∈ evs) ∧
    (t.out.evReady = true ↔ Event.ready t.now ∈ evs) ∧
    (t.out.evInitError = true ↔ Event.initError t.now .pinFault ∈ evs) ∧
    responses evs ≤ 1

/-- R41, R42: the status and the level outputs of a tick that is no reset tick are those of the registers at its start. That
the levels, too, are taken at the start of the tick is log entry 10 (DEDUCED). -/
def Obligations.StatusOutputs : Prop :=
  ∀ (s t : State) (i : TickIn), i.rst = false → tick i s = .next t →
    t.out.status = statusVec s ∧ t.out.ready = readyLevel s ∧ t.out.failed = failedLevel s ∧ t.out.closed = closedLevel s

/-! ## Pin transactions (spec/20_memory.md) -/

/-- R73, R76: a response to an outstanding transaction clears `pend`, latches a FAULT, is recorded, and changes `opened` and
the pin level by the table of R76. -/
def Obligations.CompletionTable : Prop :=
  ∀ (s : State) (rsp : Pins (Option PinStatus)) (p : Chan) (st : PinStatus),
    hasBit s.pend p = true → rsp.get p = some st →
    hasBit (phase1 rsp s).pend p = false ∧
    Event.complete s.now p st ∈ (phase1 rsp s).history ∧
    (st = .fault → (phase1 rsp s).fault = true) ∧
    match s.txn.get p, st with
    | .openPin, .ok => hasBit (phase1 rsp s).opened p = true ∧ (phase1 rsp s).lvl.get p = .x
    | .openPin, .fault =>
      hasBit (phase1 rsp s).opened p = hasBit s.opened p ∧ (phase1 rsp s).lvl.get p = s.lvl.get p
    | .write v, .ok =>
      hasBit (phase1 rsp s).opened p = hasBit s.opened p ∧
        (phase1 rsp s).lvl.get p = (if v then Lvl.high else Lvl.low)
    | .write _, .fault => hasBit (phase1 rsp s).opened p = hasBit s.opened p ∧ (phase1 rsp s).lvl.get p = .x
    | .closePin, _ => hasBit (phase1 rsp s).opened p = false ∧ (phase1 rsp s).lvl.get p = .rel

/-- R74: a response on a channel with nothing outstanding changes nothing and records nothing. -/
def Obligations.StrayResponseIgnored : Prop :=
  ∀ (s : State) (i : TickIn) (p : Chan), i.rst = false → hasBit s.pend p = false →
    tick { i with rsp := i.rsp.set p none } s = tick i s

/-- R43, R72: the pin-request outputs. In every tick that is no reset tick, `pc_req` names an operation on a channel exactly
when its Issue is among the tick's events, and that operation is then outstanding; the port's codes and levels are R43's. -/
def Obligations.PinRequestOutputs : Prop :=
  (∀ (s t : State) (i : TickIn), i.rst = false → tick i s = .next t → ∃ evs, Appends s t evs ∧
    ∀ (p : Chan) (op : PinOp),
      (t.out.req.get p = some op ↔ Event.issue t.now p op ∈ evs) ∧
      (t.out.req.get p = some op → hasBit t.pend p = true ∧ t.txn.get p = op)) ∧
  PinOp.openPin.code = 0b00#2 ∧ PinOp.closePin.code = 0b10#2 ∧ PinOp.openPin.level = false ∧
  PinOp.closePin.level = false ∧ ∀ v, (PinOp.write v).code = 0b01#2 ∧ (PinOp.write v).level = v

/-- R76: outside reset ticks a level and an `opened` bit change only on a channel whose outstanding transaction is answered in
the tick; every other channel's are as before. -/
def Obligations.PinRecordChangesOnlyAtCompletion : Prop :=
  ∀ (s t : State) (i : TickIn) (p : Chan), i.rst = false → tick i s = .next t →
    (hasBit s.pend p = false ∨ i.rsp.get p = none) →
    t.lvl.get p = s.lvl.get p ∧ hasBit t.opened p = hasBit s.opened p

/-- R76: while a WRITE is in flight on a channel whose level is known, the physical level is the old one or the new one, and
both are admitted. -/
def Obligations.WriteInFlightIsRace : Prop :=
  ∀ (s : State) (p : Chan) (old new : Bool), s.lvl.get p = (if old then Lvl.high else Lvl.low) →
    hasBit s.pend p = true → s.txn.get p = .write new →
    ∀ b : Bool, possibleLevel s p b = true ↔ b = old ∨ b = new

/-- R72, R84, R142: a tick that issues a transaction found no transaction outstanding when its phase 2 began, so no channel
ever has two, and everything earlier is complete. -/
def Obligations.IssueOnlyWhenAllAnswered : Prop :=
  ∀ (s t : State) (i : TickIn), i.rst = false → tick i s = .next t → issues s.history < issues t.history →
    s.pk ≠ .none ∧ ∀ p, hasBit s.pend p = true → (i.rsp.get p).isSome = true

/-- R95: while a channel does not answer, the block stays active, holds its place, issues nothing and, outside INIT, answers
nothing, for any number of ticks without a reset. -/
def Obligations.UnansweredTransactionStalls : Prop :=
  ∀ (s : State) (ins : List TickIn) (p : Chan), BlockInv s → hasBit s.pend p = true → NoReset ins →
    (∀ i ∈ ins, i.rsp.get p = none) →
    ∃ t, runTicks ins s = .next t ∧ hasBit t.pend p = true ∧ t.pk = s.pk ∧ t.mode = s.mode ∧ t.upc = s.upc ∧
      t.hWord = s.hWord ∧ issues t.history = issues s.history ∧
      (s.mode ≠ .init → responses t.history = responses s.history)

/-! ## The sequencer -/

/-- R143: a `Wait(n)` that has just started keeps its place for n - 1 further ticks, whatever the environment does, and the
tick after those goes on to the next item or to the finish in its own phase 2. -/
def Obligations.WaitTakesExactlyItsCount : Prop :=
  ∀ (s : State) (ins : List TickIn), s.pk ≠ .none → s.pend = 0#6 → NoReset ins → ins.length < s.wait →
    ∃ t, runTicks ins s = .next t ∧ t.wait = s.wait - ins.length ∧ t.pk = s.pk ∧ t.upc = s.upc ∧ t.pend = 0#6 ∧
      t.now = s.now + ins.length ∧ t.lvl = s.lvl ∧ issues t.history = issues s.history ∧
      ∀ i : TickIn, t.wait = 1 → i.rst = false → i.rq = none →
        tick i t = advance { beginTick t with wait := 0 }

/-- R33, R40, R150: outside reset ticks `upc` moves by one item start or to 0 by a load, `istate` is written only while INIT
runs, and the parameters never change. -/
def Obligations.UpcAndIStateWrites : Prop :=
  ∀ (s t : State) (i : TickIn), i.rst = false → tick i s = .next t →
    t.params = s.params ∧
    (t.upc = s.upc ∨ (s.pk ≠ .none ∧ t.upc = s.upc + 1#7) ∨ (s.pk = .none ∧ t.pk ≠ .none ∧ t.upc = 0#7)) ∧
    (s.pk ≠ .init → t.istate = s.istate)

/-- R146: when every item is complete and a fault is latched or no item is left, the tick finishes the program: the Response
or the INIT event, the mode, `pk = NONE`, and nothing else. `u` is the state after phase 1. -/
def Obligations.FinishByProgram : Prop :=
  ∀ (s u : State) (i : TickIn), BlockInv s → i.rst = false → i.rq = none → s.pk ≠ .none →
    u = phase1 i.rsp (beginTick s) → u.pend = 0#6 → u.wait ≤ 1 → (u.fault = true ∨ u.upc.toNat = (prog u).length) →
    let st : RspStatus := if u.fault then .pinFault else .ok
    ((s.pk = .nib ∨ s.pk = .frame) → tick i s = .next
      { u with pk := .none, wait := 0, history := u.history ++ [.response u.now st]
               out := { u.out with rsp := some st } }) ∧
    (s.pk = .close → tick i s = .next
      { u with pk := .none, wait := 0, mode := .closed, history := u.history ++ [.response u.now st]
               out := { u.out with rsp := some st } }) ∧
    (s.pk = .init → u.fault = false → tick i s = .next
      { u with pk := .none, wait := 0, mode := .ready, istate := .ready
               history := u.history ++ [.ready u.now], out := { u.out with evReady := true } }) ∧
    (s.pk = .init → u.fault = true → tick i s = .next
      { u with pk := .none, wait := 0, mode := .failed
               history := u.history ++ [.initError u.now .pinFault], out := { u.out with evInitError := true } })

/-! ## Whole programs, under any backend that answers -/

/-- NIB v[, S] from READY to its finish, whatever the latencies, the statuses and the words presented meanwhile (R172 to
R174): READY again, RS untouched, and either OK with the lines as written and exactly one strobe of the nibble, or
PinFault with at most that strobe. A strobe is an E-high write that answers OK, whatever the E-low write answers (the model's
choice, log entry 21). The levels after a PinFault, other than RS, are not said here. -/
def Obligations.NibSendsOneNibble : Prop :=
  ∀ (s t u : State) (v : Byte) (st : Bool) (ins : List TickIn), BlockInv s → HistoryAgrees s →
    s.mode = .ready → s.pk = .none → v.toNat < 16 → exec (.nib v st) s = .next t → NoReset ins →
    runToIdle ins t = some u →
    u.mode = .ready ∧ u.opened = s.opened ∧ u.istate = s.istate ∧ u.lvl.rs = s.lvl.rs ∧
    ((u.history.getLast? = some (.response u.now .ok) ∧
        u.lvl = { rs := s.lvl.rs, e := .low
                  d0 := Lvl.ofBool (v.getLsbD 0), d1 := Lvl.ofBool (v.getLsbD 1)
                  d2 := Lvl.ofBool (v.getLsbD 2), d3 := Lvl.ofBool (v.getLsbD 3) } ∧
        strobes u.history = strobes s.history ++ [nibbleStrobe s.lvl.rs (v.setWidth 4)]) ∨
      (u.history.getLast? = some (.response u.now .pinFault) ∧
        (strobes u.history = strobes s.history ∨
          strobes u.history = strobes s.history ++ [nibbleStrobe s.lvl.rs (v.setWidth 4)])))

/-- CMD and DATA from READY to their finish, under any backend that answers (R192, R193, R196, R197): OK with RS at the mode
and exactly two strobes, the high nibble and then the low one, both under that RS; or PinFault with a first part of
them. A strobe is an E-high write that answers OK, whatever the E-low write answers (the model's choice, log entry 21). The
levels after a PinFault (R196) are not said here. -/
def Obligations.FrameSendsHighThenLowNibble : Prop :=
  ∀ (s t u : State) (m : Bool) (b : Byte) (st : Bool) (ins : List TickIn), BlockInv s → HistoryAgrees s →
    s.mode = .ready → s.pk = .none → exec (if m then .data b st else .cmd b st) s = .next t → NoReset ins →
    runToIdle ins t = some u →
    u.mode = .ready ∧ u.opened = s.opened ∧ u.istate = s.istate ∧
    ((u.history.getLast? = some (.response u.now .ok) ∧
        u.lvl = { rs := Lvl.ofBool m, e := .low
                  d0 := Lvl.ofBool (b.getLsbD 0), d1 := Lvl.ofBool (b.getLsbD 1)
                  d2 := Lvl.ofBool (b.getLsbD 2), d3 := Lvl.ofBool (b.getLsbD 3) } ∧
        strobes u.history = strobes s.history ++
          [nibbleStrobe (Lvl.ofBool m) (hiNibble b), nibbleStrobe (Lvl.ofBool m) (loNibble b)]) ∨
      (u.history.getLast? = some (.response u.now .pinFault) ∧
        (strobes u.history = strobes s.history ∨
          strobes u.history = strobes s.history ++ [nibbleStrobe (Lvl.ofBool m) (hiNibble b)] ∨
          strobes u.history = strobes s.history ++
            [nibbleStrobe (Lvl.ofBool m) (hiNibble b), nibbleStrobe (Lvl.ofBool m) (loNibble b)])))

/-- CLOSE from READY or FAILED to its finish, under any backend that answers (R270, R271, R273): CLOSED, nothing open, every
channel that was open released and every other channel's level as before; OK or PinFault, by which answers is not said here
(FinishByProgram ties the two to the fault latch). -/
def Obligations.CloseReleasesOpenChannels : Prop :=
  ∀ (s t u : State) (ins : List TickIn), BlockInv s → (s.mode = .ready ∨ s.mode = .failed) → s.pk = .none →
    exec .close s = .next t → NoReset ins → runToIdle ins t = some u →
    u.mode = .closed ∧ u.opened = 0#6 ∧ u.hCmask = s.opened ∧
    (∀ p, u.lvl.get p = if hasBit s.opened p = true then Lvl.rel else s.lvl.get p) ∧
    (u.history.getLast? = some (.response u.now .ok) ∨ u.history.getLast? = some (.response u.now .pinFault))

/-- INIT from its first item to its finish, under any backend that answers and whatever words are presented (R241, R247,
R248, R249, R250): READY with the levels of R248, every channel open, and exactly the strobes of the handshake, all with RS
low; or FAILED. -/
def Obligations.InitRunsHandshake : Prop :=
  ∀ (s u : State) (ins : List TickIn), BlockInv s → HistoryAgrees s → s.mode = .init → s.upc = 0#7 → NoReset ins →
    runToIdle ins s = some u →
    (u.mode = .ready ∧ u.istate = .ready ∧ u.opened = 0b111111#6 ∧ Event.ready u.now ∈ u.history ∧
      u.lvl = { rs := .low, e := .low, d0 := .high, d1 := .low, d2 := .low, d3 := .low } ∧
      strobes u.history = strobes s.history ++
        [0x3#4, 0x3#4, 0x3#4, 0x2#4,
          hiNibble (functionSet s.cfgRowsM1Q s.cfgLfQ), loNibble (functionSet s.cfgRowsM1Q s.cfgLfQ),
          0x1#4, 0x0#4, 0x0#4, 0xC#4, 0x0#4, 0x6#4, 0x0#4, 0x1#4].map (nibbleStrobe .low)) ∨
    (u.mode = .failed ∧ Event.initError u.now .pinFault ∈ u.history ∧ u.istate = icode (u.upc.toNat - 1))

/-- R347, where the members of each group answer together: with every group answered OK after its latency, each
request's Response(OK) comes exactly at the tick the table gives, and the program runs until then. -/
def Obligations.ResponseTiming : Prop :=
  ∀ (s t : State) (r : Instr) (ls : List Nat), BlockInv s → s.pk = .none → exec r s = .next t → t.pk ≠ .none →
    ls.length = groupCount (prog t) → (∀ l ∈ ls, 1 ≤ l) →
    let total := 1 + ls.sum + (match r with
      | .cmd _ st => 2 * s.params.nStrobe + (if st then s.params.nLong else 0)
      | .data _ st => 2 * s.params.nStrobe + (if st then s.params.nLong else 0)
      | .nib _ st => s.params.nStrobe + (if st then s.params.nLong else 0)
      | .close => 0)
    (programInputs (prog t) ls).length = total ∧
    (∀ k, k < total → ∃ u, runTicks ((programInputs (prog t) ls).take k) t = .next u ∧ u.pk = t.pk ∧
      responses u.history = responses s.history) ∧
    ∃ u, runTicks (programInputs (prog t) ls) t = .next u ∧ u.pk = .none ∧ u.now = t.now + total ∧
      u.history.getLast? = some (.response (t.now + total) .ok) ∧
      u.mode = if r = .close then .closed else .ready

/-- R347, R252, where the members of each group answer together: with every group answered OK after its latency, INIT ends with Ready exactly at the tick the formula gives. -/
def Obligations.InitTiming : Prop :=
  ∀ (s : State) (ls : List Nat), BlockInv s → s.mode = .init → s.upc = 0#7 → ls.length = 49 → (∀ l ∈ ls, 1 ≤ l) →
    let c := s.params
    let total := 1 + ls.sum + 14 * c.nStrobe + c.nPowerOn + c.nW1 + c.nW2 + c.nW3 + c.nLong
    (programInputs (prog s) ls).length = total ∧
    (∀ k, k < total → ∃ u, runTicks ((programInputs (prog s) ls).take k) s = .next u ∧ u.mode = .init) ∧
    ∃ u, runTicks (programInputs (prog s) ls) s = .next u ∧ u.mode = .ready ∧ u.now = s.now + total ∧
      u.history.getLast? = some (.ready (s.now + total))

/-! ## Micro-programs -/

/-- R170: NIBBLE, item by item: bit i of v on `D_i`, E raised, the hold, E lowered, and RS never written. -/
def Obligations.NibbleItems : Prop :=
  ∀ (c : Params) (v : Nibble), nibble c v =
    [.group { rs := none, e := none
              d0 := some (.write (v.getLsbD 0)), d1 := some (.write (v.getLsbD 1))
              d2 := some (.write (v.getLsbD 2)), d3 := some (.write (v.getLsbD 3)) },
      .group { rs := none, e := some (.write true), d0 := none, d1 := none, d2 := none, d3 := none },
      .wait c.nStrobe,
      .group { rs := none, e := some (.write false), d0 := none, d1 := none, d2 := none, d3 := none }]

/-- R190, R194: FRAME is the RS write and then the two nibbles, and the byte is 16*hi + lo. -/
def Obligations.FrameItems : Prop :=
  ∀ (c : Params) (b : Byte) (m : Bool), ∃ hi lo : Nibble, b.toNat = 16 * hi.toNat + lo.toNat ∧
    frame c b m =
      .group { rs := some (.write m), e := none, d0 := none, d1 := none, d2 := none, d3 := none } ::
        (nibble c hi ++ nibble c lo)

/-- R271: CLOSE_PROG is empty for no channel, else one group that closes exactly the channels of the mask. -/
def Obligations.CloseProgramItems : Prop :=
  closeProg 0#6 = [] ∧
  ∀ m : ChanSet, m ≠ 0#6 → ∃ ops : Pins (Option PinOp), closeProg m = [.group ops] ∧
    ∀ p, ops.get p = if hasBit m p = true then some .closePin else none

/-- R241, R140: INIT has 68 items, its long waits at 2, 7, 12, 17 and 67; every other wait is a strobe hold, and every other
item is a group with a member. -/
def Obligations.InitProgramItems : Prop :=
  ∀ (c : Params) (rm1 : BitVec 2) (lf : Bool),
    (initProg c rm1 lf).length = 68 ∧
    (initProg c rm1 lf)[2]? = some (.wait c.nPowerOn) ∧ (initProg c rm1 lf)[7]? = some (.wait c.nW1) ∧
    (initProg c rm1 lf)[12]? = some (.wait c.nW2) ∧ (initProg c rm1 lf)[17]? = some (.wait c.nW3) ∧
    (initProg c rm1 lf)[67]? = some (.wait c.nLong) ∧
    ∀ (k : Nat) (item : Item), (initProg c rm1 lf)[k]? = some item →
      match item with
      | .group ops => ∃ p, (ops.get p).isSome = true
      | .wait n => n ∈ Config.counts c ∧ (k ∉ [2, 7, 12, 17, 67] → n = c.nStrobe)

/-- R243: the function-set byte of every configuration. -/
def Obligations.FunctionSetBytes : Prop :=
  functionSet 0#2 false = 0x20#8 ∧ functionSet 0#2 true = 0x24#8 ∧
  ∀ (rm1 : BitVec 2) (lf : Bool), rm1 ≠ 0#2 → functionSet rm1 lf = 0x28#8

/-! ## Registers, status, configuration, reset -/

/-- R41, R42: every field of the status vector, and the three levels. -/
def Obligations.StatusFields : Prop :=
  ∀ s : State,
    (statusVec s).extractLsb' 0 2 = s.mode.code ∧ ((statusVec s).getLsbD 2 = true ↔ s.pk ≠ .none) ∧
    (statusVec s).getLsbD 3 = false ∧ (statusVec s).extractLsb' 4 4 = s.istate.code ∧
    (readyLevel s = true ↔ s.mode = .ready) ∧ (failedLevel s = true ↔ s.mode = .failed) ∧
    (closedLevel s = true ↔ s.mode = .closed) ∧ statusVec State.reset = 0x04#8

/-- R39: the configuration registers sample their inputs in reset ticks and hold in every other tick. -/
def Obligations.ConfigurationSampledAtReset : Prop :=
  ∀ s t : State, step s = .next t →
    ((nextInput s).rst = true →
      t.cfgRowsM1Q = (nextInput s).cfgRowsM1 ∧ t.cfgLfQ = (nextInput s).cfgLargeFont) ∧
    ((nextInput s).rst = false → t.cfgRowsM1Q = s.cfgRowsM1Q ∧ t.cfgLfQ = s.cfgLfQ)

/-- R253: a tick does not depend on the configuration registers, outside INIT and in INIT while `upc` is below 22 or above
30; INIT's items depend on them only inside the function-set frame, items 22 to 30, and there only through the byte `FS`. -/
def Obligations.ConfigurationReadOnlyByFunctionSet : Prop :=
  (∀ (s : State) (i : TickIn) (rm1 : BitVec 2) (lf : Bool), s.pk ≠ .init ∨ s.upc.toNat < 22 ∨ 30 < s.upc.toNat →
    i.rst = false →
    tick i { s with cfgRowsM1Q := rm1, cfgLfQ := lf } =
      andThen (tick i s) (fun t => .next { t with cfgRowsM1Q := rm1, cfgLfQ := lf })) ∧
  (∀ (c : Params) (rm1 rm2 : BitVec 2) (l1 l2 : Bool) (k : Nat), k < 22 ∨ 30 < k →
    (initProg c rm1 l1)[k]? = (initProg c rm2 l2)[k]?) ∧
  (∀ (c : Params) (rm1 rm2 : BitVec 2) (l1 l2 : Bool), functionSet rm1 l1 = functionSet rm2 l2 →
    initProg c rm1 l1 = initProg c rm2 l2)

/-- R330, R49: a reset tick, from any state and whatever else the inputs hold. That `Reset(t)` carries tick number 0, that
`txn` becomes OPEN, and that `ready`, `failed` and `closed` are 0 in a reset tick whatever the mode was are the model's own
(log entries 5, 9 and 10). -/
def Obligations.ResetTickLeavesResetValues : Prop :=
  ∀ (s : State) (i : TickIn), i.rst = true → tick i s = .next
    { params := s.params, mode := .init, pk := .init, upc := 0#7, hWord := 0x0000#16, hCmask := 0b000000#6
      pend := 0b000000#6, fault := false, wait := 0, opened := 0b000000#6
      cfgRowsM1Q := i.cfgRowsM1, cfgLfQ := i.cfgLargeFont, istate := .poweredUnknown
      txn := Pins.const .openPin, lvl := Pins.const .x, history := s.history ++ [.reset 0], now := 0
      out := { rqReady := false, rsp := none, evReady := false, evInitError := false, status := 0x04#8
               ready := false, failed := false, closed := false, req := Pins.const none }
      inputs := s.inputs, draws := s.draws }

/-- R275: the mode changes of a step, each with the event that makes it; there is no other. -/
def Obligations.ModeTransitions : Prop :=
  ∀ s t : State, BlockInv s → step s = .next t →
    ((nextInput s).rst = true ∧ t.mode = .init) ∨
    ((nextInput s).rst = false ∧ ∃ evs, Appends s t evs ∧
      (t.mode = s.mode ∨
        (s.mode = .init ∧ t.mode = .ready ∧ t.pk = .none ∧ Event.ready t.now ∈ evs) ∨
        (s.mode = .init ∧ t.mode = .failed ∧ t.pk = .none ∧ Event.initError t.now .pinFault ∈ evs) ∨
        ((s.mode = .ready ∨ s.mode = .failed) ∧ s.pk = .close ∧ t.mode = .closed ∧ t.pk = .none ∧
          (Event.response t.now .ok ∈ evs ∨ Event.response t.now .pinFault ∈ evs))))

/-! ## Invariants -/

/-- The state after reset meets the invariant, and its history tells its pin record. -/
def Obligations.ResetMeetsInvariant : Prop := BlockInv State.reset ∧ HistoryAgrees State.reset

/-- Every step keeps the invariant, from every state that meets it. -/
def Obligations.StepKeepsInvariant : Prop := ∀ s t : State, BlockInv s → step s = .next t → BlockInv t

/-- A state that meets the invariant always steps: no fault, no refusal. -/
def Obligations.InvariantStateSteps : Prop := ∀ s : State, BlockInv s → SafeStep s

/-- Every step keeps the agreement of the history with `pend`, `opened`, the outstanding operations and the levels (R48:
the history is the observation a claim is stated over). -/
def Obligations.StepKeepsHistoryAgreement : Prop :=
  ∀ s t : State, HistoryAgrees s → step s = .next t → HistoryAgrees t

/-! ## The host commands (spec/43_host_commands.md) -/

/-- R211, R212, R217: the fixed words. -/
def Obligations.FixedCommandWords : Prop :=
  ∀ (c : HostCfg) (r : HostRegs),
    (plan c r .clear).requests.map encode = [0x1101#16] ∧ (plan c r .home).requests.map encode = [0x1102#16] ∧
    (plan c r .scrollL).requests.map encode = [0x1018#16] ∧ (plan c r .scrollR).requests.map encode = [0x101C#16]

/-- R213: SETCUR clamps its row and presents `0x80 + a`, or `a` once bit 7 is set in it, and fails InvalidValue above 0xFF;
`a` is the column plus the row's offset. `rows` is 1 to 4, and without a choice the row table is the later one. -/
def Obligations.SetCursorBytes : Prop :=
  (∀ (c : HostCfg) (r : HostRegs) (col : Nat) (row : Int) (a : Nat),
    a = col + (c.table.offsets[(max 0 (min row (c.rows - 1 : Int))).toNat]?).getD 0 →
    (a ≤ 0x7F → plan c r (.setCur col row) = { requests := [.cmd (BitVec.ofNat 8 (0x80 + a)) false], thenInvalid := false }) ∧
    (0x80 ≤ a → a ≤ 0xFF →
      plan c r (.setCur col row) = { requests := [.cmd (BitVec.ofNat 8 a) false], thenInvalid := false }) ∧
    (0x100 ≤ a → plan c r (.setCur col row) = { requests := [], thenInvalid := true })) ∧
  (∀ c : HostCfg, 1 ≤ c.rows ∧ c.rows ≤ 4) ∧
  ∀ rm1 : BitVec 2, ({ rowsM1 := rm1 } : HostCfg).table.offsets = [0x00, 0x40, 0x10, 0x50]

/-- R213: the host's row count is the one the block sampled: it is at reset, a reset tick makes it so, and every other tick of
host and block together keeps it so. That the host takes its count from the reset tick's input is log entry 24 (DEDUCED). -/
def Obligations.HostRowsAgree : Prop :=
  System.reset.rowsAgree ∧
  ∀ (y z : System) (i : TickIn), systemTick i y = .next z → (i.rst = true ∨ y.rowsAgree) → z.rowsAgree

/-- R218, R219: PRINT sends one DATA per character from the start index, which is 0 up to 159 characters and
`(L / 80 - 1) * 80` from 160 on. Bytes are all sent; at a code point above 0xFF the characters before it have been sent, and
the operation then fails InvalidValue at the host. -/
def Obligations.PrintSendsFromStartIndex : Prop :=
  ∀ (c : HostCfg) (r : HostRegs) (text sent : List Nat),
    sent = text.drop (if text.length < 160 then 0 else (text.length / 80 - 1) * 80) →
    ((∀ ch ∈ sent, ch ≤ 0xFF) → plan c r (.print text) =
      { requests := sent.map (fun ch => Instr.data (BitVec.ofNat 8 ch) false), thenInvalid := false }) ∧
    (∀ (before after : List Nat) (wide : Nat), sent = before ++ wide :: after → (∀ ch ∈ before, ch ≤ 0xFF) → 0xFF < wide →
      plan c r (.print text) =
        { requests := before.map (fun ch => Instr.data (BitVec.ofNat 8 ch) false), thenInvalid := true })

/-- R214, R215, R216, R220: each of the ten toggles presents CMD with the byte of the registers it changes one bit of and, once
it has succeeded, leaves them so; the two bytes are the sums of their bits; the default registers give the bytes INIT sends;
and after DISPLAY; NODISPLAY the display bit is 0, which is its earlier value only if that was 0. The bit positions are the
spec's general knowledge (log entry 17). -/
def Obligations.DisplayToggleLaws : Prop :=
  dcByte HostRegs.initial = 0x0C#8 ∧ emByte HostRegs.initial = 0x06#8 ∧
  ∀ r : HostRegs,
    (dcByte r).toNat = 8 + 4 * r.displayOn.toNat + 2 * r.cursorOn.toNat + r.blinkOn.toNat ∧
    (emByte r).toNat = 4 + 2 * r.leftToRight.toNat + r.autoscrollOn.toNat ∧
    (∀ (c : HostCfg) (op : HostOp) (r' : HostRegs),
      ((op = .display ∧ r' = { r with displayOn := true }) ∨ (op = .noDisplay ∧ r' = { r with displayOn := false }) ∨
        (op = .cursor ∧ r' = { r with cursorOn := true }) ∨ (op = .noCursor ∧ r' = { r with cursorOn := false }) ∨
        (op = .blink ∧ r' = { r with blinkOn := true }) ∨ (op = .noBlink ∧ r' = { r with blinkOn := false }) →
        plan c r op = { requests := [.cmd (dcByte r') false], thenInvalid := false } ∧ regsAfter op r = r') ∧
      ((op = .ltr ∧ r' = { r with leftToRight := true }) ∨ (op = .rtl ∧ r' = { r with leftToRight := false }) ∨
        (op = .autoscroll ∧ r' = { r with autoscrollOn := true }) ∨
        (op = .noAutoscroll ∧ r' = { r with autoscrollOn := false }) →
        plan c r op = { requests := [.cmd (emByte r') false], thenInvalid := false } ∧ regsAfter op r = r')) ∧
    regsAfter .noDisplay (regsAfter .noDisplay r) = regsAfter .noDisplay r ∧
    (regsAfter .noDisplay (regsAfter .display r)).displayOn = false ∧
    ((regsAfter .noDisplay (regsAfter .display r)).displayOn = r.displayOn ↔ r.displayOn = false)

/-- R222, R333: the queue. A submitted operation goes to its tail. In a tick of host and block together the block ticks on the
presenter's word, the running operation's first unanswered request until it is accepted, and the driver afterwards is the
presenter once it has observed the tick's outputs (OperationRunsByResponses says what that makes of it). A reset loses the
queue and the operation in progress, restores the host's registers, and sets its row count from the tick's `cfg_rows_m1`.
In another tick, when no operation is in progress, the block's mode is not INIT and an
operation is queued, the oldest one leaves the queue: it runs by its plan, or, where its plan has no request, it ends at once
with its registers and signals (R221), or with the error signal where the host fails it. Otherwise the presenter is the
driver before the tick.
THE MODEL'S OWN: that the host takes the next operation in that very tick is log entry 18 (DESIGN CHOICE; R221 and R222 leave
the moment open), that a failure the host decides itself fires the error signal is log entry 22 (DESIGN CHOICE), and that the
host's row count becomes the reset tick's `cfg_rows_m1` input is log entry 24 (DEDUCED). -/
def Obligations.DriverQueueIsFifo : Prop :=
  (∀ (d : Driver) (op : HostOp), d.submit op = { d with queue := d.queue ++ [op] }) ∧
  (∀ (d : Driver) (r : Running), d.cur = some r → d.word = if r.awaiting = true then none else r.rest.head?.map encode) ∧
  (∀ d : Driver, d.cur = none → d.word = none) ∧
  ∀ (y z : System) (i : TickIn), systemTick i y = .next z →
    tick { i with rq := (y.presenter i).word } y.block = .next z.block ∧
    z.driver = (y.presenter i).observe z.block.out ∧
    (i.rst = true → z.driver =
      { y.driver with cfg := { y.driver.cfg with rowsM1 := i.cfgRowsM1 }
                      regs := HostRegs.initial, queue := [], cur := none }) ∧
    (i.rst = false → z.driver.queue = (y.presenter i).queue ∧
      (∀ (op : HostOp) (q : List HostOp) (pl : Plan), y.driver.cur = none → y.block.mode ≠ .init →
        y.driver.queue = op :: q → pl = plan y.driver.cfg y.driver.regs op →
        (pl.requests ≠ [] → y.presenter i =
          { y.driver with
            queue := q
            cur := some { op := op, rest := pl.requests, thenInvalid := pl.thenInvalid, awaiting := false } }) ∧
        (pl.requests = [] → pl.thenInvalid = false → y.presenter i =
          { y.driver with
            queue := q, regs := regsAfter op y.driver.regs, signals := y.driver.signals ++ successSignals op }) ∧
        (pl.requests = [] → pl.thenInvalid = true → y.presenter i =
          { y.driver with queue := q, signals := y.driver.signals ++ [.error .invalidValue] })) ∧
      ((y.driver.cur ≠ none ∨ y.block.mode = .init ∨ y.driver.queue = []) → y.presenter i = y.driver))

/-- R210, R214, R221: what the host makes of a tick's outputs. With no operation running only the Ready pulse is signalled. While
one runs nothing changes but the acceptance until a Response to its accepted request; an OK moves on to the next request; the
OK of the last one ends the operation, with its registers updated and its signals, or with InvalidValue where the host fails
it (R213, R218); any other status ends it with that error, its later requests not presented and the registers kept. The signals
of success are `printed` with the text for PRINT, `clear` for CLEAR, `home` for HOME, and none for the others. That a failure
the host decides itself fires the error signal is the model's choice (log entry 22). -/
def Obligations.OperationRunsByResponses : Prop :=
  (∀ op : HostOp, successSignals op = match op with
    | .print text => [.printed text]
    | .clear => [.clear]
    | .home => [.home]
    | _ => []) ∧
  (∀ (d : Driver) (o : TickOut), d.cur = none → d.observe o =
    { d with signals := d.signals ++ if o.evReady = true then [.ready] else [] }) ∧
  ∀ (d : Driver) (r : Running) (o : TickOut) (w : Instr) (rest : List Instr),
    d.cur = some r → r.rest = w :: rest →
    let accepted := r.awaiting || o.rqReady
    let pulse : List HostSignal := if o.evReady = true then [.ready] else []
    ((o.rsp = none ∨ accepted = false) → d.observe o =
      { d with cur := some { r with awaiting := accepted }, signals := d.signals ++ pulse }) ∧
    (o.rsp = some .ok → accepted = true → rest ≠ [] → d.observe o =
      { d with cur := some { r with rest := rest, awaiting := false }, signals := d.signals ++ pulse }) ∧
    (o.rsp = some .ok → accepted = true → rest = [] → r.thenInvalid = false → d.observe o =
      { d with regs := regsAfter r.op d.regs, cur := none, signals := d.signals ++ successSignals r.op ++ pulse }) ∧
    (o.rsp = some .ok → accepted = true → rest = [] → r.thenInvalid = true → d.observe o =
      { d with cur := none, signals := d.signals ++ [.error .invalidValue] ++ pulse }) ∧
    ∀ st, o.rsp = some st → st ≠ .ok → accepted = true → d.observe o =
      { d with cur := none, signals := d.signals ++ [.error st] ++ pulse }
end

