-- ==== Sys2Proof/Laws/Host.lean ====
section
/-! SUPPORT. What the host layer's operations do, each said once: the clamped row, the fetch, the observation of outputs, the
tick of host and block together. -/

namespace Sys2Proof.Machine

/-- The host's row count is one the configuration can name (R14). -/
theorem HostCfg.rows_range (c : HostCfg) : 1 ≤ c.rows ∧ c.rows ≤ 4 := by
  unfold HostCfg.rows
  have := c.rowsM1.isLt
  omega

/-- The clamped row always has an entry in the row table, so no offset is made up (R213). -/
theorem clampRow_in_table (c : HostCfg) (row : Int) : clampRow c.rows row < c.table.offsets.length := by
  have hr := c.rows_range
  have hl : c.table.offsets.length = 4 := by cases c.table <;> rfl
  unfold clampRow
  omega

@[simp] theorem Driver.conclude_queue (d : Driver) (op : HostOp) (st : RspStatus) : (d.conclude op st).queue = d.queue := by
  unfold Driver.conclude; split <;> rfl

@[simp] theorem Driver.conclude_cfg (d : Driver) (op : HostOp) (st : RspStatus) : (d.conclude op st).cfg = d.cfg := by
  unfold Driver.conclude; split <;> rfl

@[simp] theorem Driver.conclude_cur (d : Driver) (op : HostOp) (st : RspStatus) : (d.conclude op st).cur = none := by
  unfold Driver.conclude; split <;> rfl

@[simp] theorem Driver.settleOp_queue (d : Driver) (r : Running) : (d.settleOp r).queue = d.queue := by
  unfold Driver.settleOp; split <;> simp

@[simp] theorem Driver.settleOp_cfg (d : Driver) (r : Running) : (d.settleOp r).cfg = d.cfg := by
  unfold Driver.settleOp; split <;> simp

/-- An operation with requests left waits for its next one; one with none left has ended. -/
theorem Driver.settleOp_cur (d : Driver) (r : Running) :
    (d.settleOp r).cur = if r.rest = [] then none else some { r with awaiting := false } := by
  unfold Driver.settleOp; split <;> simp

/-- Observing a tick's outputs takes nothing off the queue. -/
@[simp] theorem Driver.observe_queue (d : Driver) (o : TickOut) : (d.observe o).queue = d.queue := by
  unfold Driver.observe
  cases d.cur <;> cases o.rsp <;> simp only <;> repeat' split
  all_goals simp

@[simp] theorem Driver.observe_cfg (d : Driver) (o : TickOut) : (d.observe o).cfg = d.cfg := by
  unfold Driver.observe
  cases d.cur <;> cases o.rsp <;> simp only <;> repeat' split
  all_goals simp

/-- With no operation running, only the Ready pulse is signalled. -/
theorem Driver.observe_idle {d : Driver} {o : TickOut} (h : d.cur = none) :
    d.observe o = if o.evReady = true then { d with signals := d.signals ++ [.ready] } else d := by
  unfold Driver.observe
  split
  · rename_i r hc; rw [h] at hc; cases hc
  · rfl

@[simp] theorem Driver.fetch_cfg (d : Driver) (initOver : Bool) : (d.fetch initOver).cfg = d.cfg := by
  unfold Driver.fetch; split <;> simp

/-- A tick of host and block together: the block ticks on the presenter's word, and the presenter observes its outputs. -/
theorem systemTick_cases {i : TickIn} {y z : System} (h : systemTick i y = .next z) :
    tick { i with rq := (y.presenter i).word } y.block = .next z.block ∧
      z.driver = (y.presenter i).observe z.block.out := by
  unfold systemTick at h
  simp only at h
  split at h
  · rename_i s hs; cases h; exact ⟨hs, rfl⟩
  · cases h
  · cases h

end Sys2Proof.Machine
end

