-- ==== Sys2Proof/Laws/PerInstr.lean ====
section
/-! SUPPORT. Statements for every request, one lemma per constructor of Instr. -/

namespace Sys2Proof.Laws.OpcodeRow

/-- A well-formed request's word has the bits its row of spec/opcode_table.json fixes (R104 to R107). -/
def Statement (i : Instr) : Prop := i.wellFormed = true → encode i &&& rowMask i = rowMatch i

theorem cmd (b : Byte) (settle : Bool) : Statement (.cmd b settle) := by
  intro _
  show (0x1000#16 ||| settleBit settle ||| b.setWidth 16) &&& 0xFE00#16 = 0x1000#16
  revert b; cases settle <;> decide

theorem data (b : Byte) (settle : Bool) : Statement (.data b settle) := by
  intro _
  show (0x1200#16 ||| settleBit settle ||| b.setWidth 16) &&& 0xFE00#16 = 0x1200#16
  revert b; cases settle <;> decide

theorem nib (v : Byte) (settle : Bool) : Statement (.nib v settle) := by
  intro h
  show (0x2000#16 ||| settleBit settle ||| v.setWidth 16) &&& 0xFEF0#16 = 0x2000#16
  have hv : v.toNat < 16 := of_decide_eq_true h
  clear h
  revert v; cases settle <;> decide

theorem close : Statement .close := fun _ => rfl

end Sys2Proof.Laws.OpcodeRow
end

