-- ==== Sys2Proof/Laws/Pins.lean ====
section
/-! SUPPORT. Laws of the channel records and of the 6-bit channel registers: read after write, and extensionality. -/

namespace Sys2Proof.Machine

theorem Pins.ext_get {α : Type} {v w : Pins α} (h : ∀ p, v.get p = w.get p) : v = w := by
  cases v; cases w
  have h1 := h .rs; have h2 := h .e; have h3 := h .d0; have h4 := h .d1; have h5 := h .d2; have h6 := h .d3
  simp only [Pins.get] at h1 h2 h3 h4 h5 h6
  subst h1 h2 h3 h4 h5 h6; rfl

@[simp] theorem Pins.get_set {α : Type} (v : Pins α) (p q : Chan) (a : α) :
    (v.set p a).get q = if q = p then a else v.get q := by
  cases p <;> cases q <;> rfl

@[simp] theorem Pins.get_ofFn {α : Type} (f : Chan → α) (p : Chan) : (Pins.ofFn f).get p = f p := by
  cases p <;> rfl

@[simp] theorem Pins.get_const {α : Type} (a : α) (p : Chan) : (Pins.const a).get p = a := by
  cases p <;> rfl

theorem hasBit_zero (p : Chan) : hasBit 0#6 p = false := by cases p <;> rfl

@[simp] theorem hasBit_setBit (m : ChanSet) (p q : Chan) : hasBit (setBit m p) q = (decide (q = p) || hasBit m q) := by
  revert m; cases p <;> cases q <;> decide

@[simp] theorem hasBit_clearBit (m : ChanSet) (p q : Chan) : hasBit (clearBit m p) q = (!decide (q = p) && hasBit m q) := by
  revert m; cases p <;> cases q <;> decide

theorem ChanSet.ext_hasBit {m n : ChanSet} (h : ∀ p, hasBit m p = hasBit n p) : m = n := by
  apply BitVec.eq_of_getLsbD_eq
  intro i hi
  have h0 := h .rs; have h1 := h .e; have h2 := h .d0; have h3 := h .d1; have h4 := h .d2; have h5 := h .d3
  simp only [hasBit, Chan.index] at h0 h1 h2 h3 h4 h5
  match i, hi with
  | 0, _ => exact h0
  | 1, _ => exact h1
  | 2, _ => exact h2
  | 3, _ => exact h3
  | 4, _ => exact h4
  | 5, _ => exact h5

theorem ChanSet.eq_zero_iff {m : ChanSet} : m = 0#6 ↔ ∀ p, hasBit m p = false := by
  constructor
  · rintro rfl p; exact hasBit_zero p
  · intro h; apply ChanSet.ext_hasBit; intro p; rw [h p, hasBit_zero]

theorem ChanSet.eq_ones_iff {m : ChanSet} : m = 0b111111#6 ↔ ∀ p, hasBit m p = true := by
  constructor
  · rintro rfl p; cases p <;> rfl
  · intro h; apply ChanSet.ext_hasBit; intro p; rw [h p]; cases p <;> rfl

theorem Chan.mem_all (p : Chan) : p ∈ Chan.all := by cases p <;> decide

/-- The channel listing is ascending in p (R142: "in ascending order of p"). -/
theorem Chan.all_ascending : (Chan.all.map Chan.index).Pairwise (· < ·) := by decide

end Sys2Proof.Machine
end

