-- ==== Sys2Proof/Laws/State.lean ====
section
/-! SUPPORT. One lemma per field per update, so that no proof unfolds a record update again. -/

namespace Sys2Proof.Machine

/-! ### record -/

@[simp] theorem record_params (ev : Event) (s : State) : (record ev s).params = s.params := rfl
@[simp] theorem record_mode (ev : Event) (s : State) : (record ev s).mode = s.mode := rfl
@[simp] theorem record_pk (ev : Event) (s : State) : (record ev s).pk = s.pk := rfl
@[simp] theorem record_upc (ev : Event) (s : State) : (record ev s).upc = s.upc := rfl
@[simp] theorem record_hWord (ev : Event) (s : State) : (record ev s).hWord = s.hWord := rfl
@[simp] theorem record_hCmask (ev : Event) (s : State) : (record ev s).hCmask = s.hCmask := rfl
@[simp] theorem record_pend (ev : Event) (s : State) : (record ev s).pend = s.pend := rfl
@[simp] theorem record_fault (ev : Event) (s : State) : (record ev s).fault = s.fault := rfl
@[simp] theorem record_wait (ev : Event) (s : State) : (record ev s).wait = s.wait := rfl
@[simp] theorem record_opened (ev : Event) (s : State) : (record ev s).opened = s.opened := rfl
@[simp] theorem record_cfgRowsM1Q (ev : Event) (s : State) : (record ev s).cfgRowsM1Q = s.cfgRowsM1Q := rfl
@[simp] theorem record_cfgLfQ (ev : Event) (s : State) : (record ev s).cfgLfQ = s.cfgLfQ := rfl
@[simp] theorem record_istate (ev : Event) (s : State) : (record ev s).istate = s.istate := rfl
@[simp] theorem record_txn (ev : Event) (s : State) : (record ev s).txn = s.txn := rfl
@[simp] theorem record_lvl (ev : Event) (s : State) : (record ev s).lvl = s.lvl := rfl
@[simp] theorem record_history (ev : Event) (s : State) : (record ev s).history = s.history ++ [ev] := rfl
@[simp] theorem record_now (ev : Event) (s : State) : (record ev s).now = s.now := rfl
@[simp] theorem record_out (ev : Event) (s : State) : (record ev s).out = s.out := rfl
@[simp] theorem record_inputs (ev : Event) (s : State) : (record ev s).inputs = s.inputs := rfl
@[simp] theorem record_draws (ev : Event) (s : State) : (record ev s).draws = s.draws := rfl

/-! ### issue -/

@[simp] theorem issue_params (p : Chan) (op : PinOp) (s : State) : (issue p op s).params = s.params := rfl
@[simp] theorem issue_mode (p : Chan) (op : PinOp) (s : State) : (issue p op s).mode = s.mode := rfl
@[simp] theorem issue_pk (p : Chan) (op : PinOp) (s : State) : (issue p op s).pk = s.pk := rfl
@[simp] theorem issue_upc (p : Chan) (op : PinOp) (s : State) : (issue p op s).upc = s.upc := rfl
@[simp] theorem issue_hWord (p : Chan) (op : PinOp) (s : State) : (issue p op s).hWord = s.hWord := rfl
@[simp] theorem issue_hCmask (p : Chan) (op : PinOp) (s : State) : (issue p op s).hCmask = s.hCmask := rfl
@[simp] theorem issue_pend (p : Chan) (op : PinOp) (s : State) : (issue p op s).pend = setBit s.pend p := rfl
@[simp] theorem issue_fault (p : Chan) (op : PinOp) (s : State) : (issue p op s).fault = s.fault := rfl
@[simp] theorem issue_wait (p : Chan) (op : PinOp) (s : State) : (issue p op s).wait = s.wait := rfl
@[simp] theorem issue_opened (p : Chan) (op : PinOp) (s : State) : (issue p op s).opened = s.opened := rfl
@[simp] theorem issue_cfgRowsM1Q (p : Chan) (op : PinOp) (s : State) : (issue p op s).cfgRowsM1Q = s.cfgRowsM1Q := rfl
@[simp] theorem issue_cfgLfQ (p : Chan) (op : PinOp) (s : State) : (issue p op s).cfgLfQ = s.cfgLfQ := rfl
@[simp] theorem issue_istate (p : Chan) (op : PinOp) (s : State) : (issue p op s).istate = s.istate := rfl
@[simp] theorem issue_txn (p : Chan) (op : PinOp) (s : State) : (issue p op s).txn = s.txn.set p op := rfl
@[simp] theorem issue_lvl (p : Chan) (op : PinOp) (s : State) : (issue p op s).lvl = s.lvl := rfl
@[simp] theorem issue_history (p : Chan) (op : PinOp) (s : State) : (issue p op s).history = s.history ++ [.issue s.now p op] := rfl
@[simp] theorem issue_now (p : Chan) (op : PinOp) (s : State) : (issue p op s).now = s.now := rfl
@[simp] theorem issue_out (p : Chan) (op : PinOp) (s : State) : (issue p op s).out = { s.out with req := s.out.req.set p (some op) } := rfl
@[simp] theorem issue_inputs (p : Chan) (op : PinOp) (s : State) : (issue p op s).inputs = s.inputs := rfl
@[simp] theorem issue_draws (p : Chan) (op : PinOp) (s : State) : (issue p op s).draws = s.draws := rfl

/-! ### complete -/

@[simp] theorem complete_params (p : Chan) (st : PinStatus) (s : State) : (complete p st s).params = s.params := rfl
@[simp] theorem complete_mode (p : Chan) (st : PinStatus) (s : State) : (complete p st s).mode = s.mode := rfl
@[simp] theorem complete_pk (p : Chan) (st : PinStatus) (s : State) : (complete p st s).pk = s.pk := rfl
@[simp] theorem complete_upc (p : Chan) (st : PinStatus) (s : State) : (complete p st s).upc = s.upc := rfl
@[simp] theorem complete_hWord (p : Chan) (st : PinStatus) (s : State) : (complete p st s).hWord = s.hWord := rfl
@[simp] theorem complete_hCmask (p : Chan) (st : PinStatus) (s : State) : (complete p st s).hCmask = s.hCmask := rfl
@[simp] theorem complete_pend (p : Chan) (st : PinStatus) (s : State) : (complete p st s).pend = clearBit s.pend p := rfl
@[simp] theorem complete_fault (p : Chan) (st : PinStatus) (s : State) : (complete p st s).fault = (s.fault || decide (st = .fault)) := rfl
@[simp] theorem complete_wait (p : Chan) (st : PinStatus) (s : State) : (complete p st s).wait = s.wait := rfl
@[simp] theorem complete_opened (p : Chan) (st : PinStatus) (s : State) : (complete p st s).opened = openedAfter (s.txn.get p) st p s.opened := rfl
@[simp] theorem complete_cfgRowsM1Q (p : Chan) (st : PinStatus) (s : State) : (complete p st s).cfgRowsM1Q = s.cfgRowsM1Q := rfl
@[simp] theorem complete_cfgLfQ (p : Chan) (st : PinStatus) (s : State) : (complete p st s).cfgLfQ = s.cfgLfQ := rfl
@[simp] theorem complete_istate (p : Chan) (st : PinStatus) (s : State) : (complete p st s).istate = s.istate := rfl
@[simp] theorem complete_txn (p : Chan) (st : PinStatus) (s : State) : (complete p st s).txn = s.txn := rfl
@[simp] theorem complete_lvl (p : Chan) (st : PinStatus) (s : State) : (complete p st s).lvl = s.lvl.set p (levelAfter (s.txn.get p) st (s.lvl.get p)) := rfl
@[simp] theorem complete_history (p : Chan) (st : PinStatus) (s : State) : (complete p st s).history = s.history ++ [.complete s.now p st] := rfl
@[simp] theorem complete_now (p : Chan) (st : PinStatus) (s : State) : (complete p st s).now = s.now := rfl
@[simp] theorem complete_out (p : Chan) (st : PinStatus) (s : State) : (complete p st s).out = s.out := rfl
@[simp] theorem complete_inputs (p : Chan) (st : PinStatus) (s : State) : (complete p st s).inputs = s.inputs := rfl
@[simp] theorem complete_draws (p : Chan) (st : PinStatus) (s : State) : (complete p st s).draws = s.draws := rfl

/-! ### respond -/

@[simp] theorem respond_params (st : RspStatus) (s : State) : (respond st s).params = s.params := rfl
@[simp] theorem respond_mode (st : RspStatus) (s : State) : (respond st s).mode = s.mode := rfl
@[simp] theorem respond_pk (st : RspStatus) (s : State) : (respond st s).pk = s.pk := rfl
@[simp] theorem respond_upc (st : RspStatus) (s : State) : (respond st s).upc = s.upc := rfl
@[simp] theorem respond_hWord (st : RspStatus) (s : State) : (respond st s).hWord = s.hWord := rfl
@[simp] theorem respond_hCmask (st : RspStatus) (s : State) : (respond st s).hCmask = s.hCmask := rfl
@[simp] theorem respond_pend (st : RspStatus) (s : State) : (respond st s).pend = s.pend := rfl
@[simp] theorem respond_fault (st : RspStatus) (s : State) : (respond st s).fault = s.fault := rfl
@[simp] theorem respond_wait (st : RspStatus) (s : State) : (respond st s).wait = s.wait := rfl
@[simp] theorem respond_opened (st : RspStatus) (s : State) : (respond st s).opened = s.opened := rfl
@[simp] theorem respond_cfgRowsM1Q (st : RspStatus) (s : State) : (respond st s).cfgRowsM1Q = s.cfgRowsM1Q := rfl
@[simp] theorem respond_cfgLfQ (st : RspStatus) (s : State) : (respond st s).cfgLfQ = s.cfgLfQ := rfl
@[simp] theorem respond_istate (st : RspStatus) (s : State) : (respond st s).istate = s.istate := rfl
@[simp] theorem respond_txn (st : RspStatus) (s : State) : (respond st s).txn = s.txn := rfl
@[simp] theorem respond_lvl (st : RspStatus) (s : State) : (respond st s).lvl = s.lvl := rfl
@[simp] theorem respond_history (st : RspStatus) (s : State) : (respond st s).history = s.history ++ [.response s.now st] := rfl
@[simp] theorem respond_now (st : RspStatus) (s : State) : (respond st s).now = s.now := rfl
@[simp] theorem respond_out (st : RspStatus) (s : State) : (respond st s).out = { s.out with rsp := some st } := rfl
@[simp] theorem respond_inputs (st : RspStatus) (s : State) : (respond st s).inputs = s.inputs := rfl
@[simp] theorem respond_draws (st : RspStatus) (s : State) : (respond st s).draws = s.draws := rfl

/-! ### raiseError -/

@[simp] theorem raiseError_params (k : RspStatus) (s : State) : (raiseError k s).params = s.params := rfl
@[simp] theorem raiseError_mode (k : RspStatus) (s : State) : (raiseError k s).mode = s.mode := rfl
@[simp] theorem raiseError_pk (k : RspStatus) (s : State) : (raiseError k s).pk = s.pk := rfl
@[simp] theorem raiseError_upc (k : RspStatus) (s : State) : (raiseError k s).upc = s.upc := rfl
@[simp] theorem raiseError_hWord (k : RspStatus) (s : State) : (raiseError k s).hWord = s.hWord := rfl
@[simp] theorem raiseError_hCmask (k : RspStatus) (s : State) : (raiseError k s).hCmask = s.hCmask := rfl
@[simp] theorem raiseError_pend (k : RspStatus) (s : State) : (raiseError k s).pend = s.pend := rfl
@[simp] theorem raiseError_fault (k : RspStatus) (s : State) : (raiseError k s).fault = s.fault := rfl
@[simp] theorem raiseError_wait (k : RspStatus) (s : State) : (raiseError k s).wait = s.wait := rfl
@[simp] theorem raiseError_opened (k : RspStatus) (s : State) : (raiseError k s).opened = s.opened := rfl
@[simp] theorem raiseError_cfgRowsM1Q (k : RspStatus) (s : State) : (raiseError k s).cfgRowsM1Q = s.cfgRowsM1Q := rfl
@[simp] theorem raiseError_cfgLfQ (k : RspStatus) (s : State) : (raiseError k s).cfgLfQ = s.cfgLfQ := rfl
@[simp] theorem raiseError_istate (k : RspStatus) (s : State) : (raiseError k s).istate = s.istate := rfl
@[simp] theorem raiseError_txn (k : RspStatus) (s : State) : (raiseError k s).txn = s.txn := rfl
@[simp] theorem raiseError_lvl (k : RspStatus) (s : State) : (raiseError k s).lvl = s.lvl := rfl
@[simp] theorem raiseError_history (k : RspStatus) (s : State) : (raiseError k s).history = s.history ++ [.response s.now k] := rfl
@[simp] theorem raiseError_now (k : RspStatus) (s : State) : (raiseError k s).now = s.now := rfl
@[simp] theorem raiseError_out (k : RspStatus) (s : State) : (raiseError k s).out = { s.out with rsp := some k } := rfl
@[simp] theorem raiseError_inputs (k : RspStatus) (s : State) : (raiseError k s).inputs = s.inputs := rfl
@[simp] theorem raiseError_draws (k : RspStatus) (s : State) : (raiseError k s).draws = s.draws := rfl

/-! ### emitReady -/

@[simp] theorem emitReady_params (s : State) : (emitReady s).params = s.params := rfl
@[simp] theorem emitReady_mode (s : State) : (emitReady s).mode = s.mode := rfl
@[simp] theorem emitReady_pk (s : State) : (emitReady s).pk = s.pk := rfl
@[simp] theorem emitReady_upc (s : State) : (emitReady s).upc = s.upc := rfl
@[simp] theorem emitReady_hWord (s : State) : (emitReady s).hWord = s.hWord := rfl
@[simp] theorem emitReady_hCmask (s : State) : (emitReady s).hCmask = s.hCmask := rfl
@[simp] theorem emitReady_pend (s : State) : (emitReady s).pend = s.pend := rfl
@[simp] theorem emitReady_fault (s : State) : (emitReady s).fault = s.fault := rfl
@[simp] theorem emitReady_wait (s : State) : (emitReady s).wait = s.wait := rfl
@[simp] theorem emitReady_opened (s : State) : (emitReady s).opened = s.opened := rfl
@[simp] theorem emitReady_cfgRowsM1Q (s : State) : (emitReady s).cfgRowsM1Q = s.cfgRowsM1Q := rfl
@[simp] theorem emitReady_cfgLfQ (s : State) : (emitReady s).cfgLfQ = s.cfgLfQ := rfl
@[simp] theorem emitReady_istate (s : State) : (emitReady s).istate = s.istate := rfl
@[simp] theorem emitReady_txn (s : State) : (emitReady s).txn = s.txn := rfl
@[simp] theorem emitReady_lvl (s : State) : (emitReady s).lvl = s.lvl := rfl
@[simp] theorem emitReady_history (s : State) : (emitReady s).history = s.history ++ [.ready s.now] := rfl
@[simp] theorem emitReady_now (s : State) : (emitReady s).now = s.now := rfl
@[simp] theorem emitReady_out (s : State) : (emitReady s).out = { s.out with evReady := true } := rfl
@[simp] theorem emitReady_inputs (s : State) : (emitReady s).inputs = s.inputs := rfl
@[simp] theorem emitReady_draws (s : State) : (emitReady s).draws = s.draws := rfl

/-! ### emitInitError -/

@[simp] theorem emitInitError_params (k : RspStatus) (s : State) : (emitInitError k s).params = s.params := rfl
@[simp] theorem emitInitError_mode (k : RspStatus) (s : State) : (emitInitError k s).mode = s.mode := rfl
@[simp] theorem emitInitError_pk (k : RspStatus) (s : State) : (emitInitError k s).pk = s.pk := rfl
@[simp] theorem emitInitError_upc (k : RspStatus) (s : State) : (emitInitError k s).upc = s.upc := rfl
@[simp] theorem emitInitError_hWord (k : RspStatus) (s : State) : (emitInitError k s).hWord = s.hWord := rfl
@[simp] theorem emitInitError_hCmask (k : RspStatus) (s : State) : (emitInitError k s).hCmask = s.hCmask := rfl
@[simp] theorem emitInitError_pend (k : RspStatus) (s : State) : (emitInitError k s).pend = s.pend := rfl
@[simp] theorem emitInitError_fault (k : RspStatus) (s : State) : (emitInitError k s).fault = s.fault := rfl
@[simp] theorem emitInitError_wait (k : RspStatus) (s : State) : (emitInitError k s).wait = s.wait := rfl
@[simp] theorem emitInitError_opened (k : RspStatus) (s : State) : (emitInitError k s).opened = s.opened := rfl
@[simp] theorem emitInitError_cfgRowsM1Q (k : RspStatus) (s : State) : (emitInitError k s).cfgRowsM1Q = s.cfgRowsM1Q := rfl
@[simp] theorem emitInitError_cfgLfQ (k : RspStatus) (s : State) : (emitInitError k s).cfgLfQ = s.cfgLfQ := rfl
@[simp] theorem emitInitError_istate (k : RspStatus) (s : State) : (emitInitError k s).istate = s.istate := rfl
@[simp] theorem emitInitError_txn (k : RspStatus) (s : State) : (emitInitError k s).txn = s.txn := rfl
@[simp] theorem emitInitError_lvl (k : RspStatus) (s : State) : (emitInitError k s).lvl = s.lvl := rfl
@[simp] theorem emitInitError_history (k : RspStatus) (s : State) : (emitInitError k s).history = s.history ++ [.initError s.now k] := rfl
@[simp] theorem emitInitError_now (k : RspStatus) (s : State) : (emitInitError k s).now = s.now := rfl
@[simp] theorem emitInitError_out (k : RspStatus) (s : State) : (emitInitError k s).out = { s.out with evInitError := true } := rfl
@[simp] theorem emitInitError_inputs (k : RspStatus) (s : State) : (emitInitError k s).inputs = s.inputs := rfl
@[simp] theorem emitInitError_draws (k : RspStatus) (s : State) : (emitInitError k s).draws = s.draws := rfl

/-! ### load -/

@[simp] theorem load_params (k : Pk) (w : Word) (s : State) : (load k w s).params = s.params := rfl
@[simp] theorem load_mode (k : Pk) (w : Word) (s : State) : (load k w s).mode = s.mode := rfl
@[simp] theorem load_pk (k : Pk) (w : Word) (s : State) : (load k w s).pk = k := rfl
@[simp] theorem load_upc (k : Pk) (w : Word) (s : State) : (load k w s).upc = 0#7 := rfl
@[simp] theorem load_hWord (k : Pk) (w : Word) (s : State) : (load k w s).hWord = w := rfl
@[simp] theorem load_hCmask (k : Pk) (w : Word) (s : State) : (load k w s).hCmask = s.hCmask := rfl
@[simp] theorem load_pend (k : Pk) (w : Word) (s : State) : (load k w s).pend = s.pend := rfl
@[simp] theorem load_fault (k : Pk) (w : Word) (s : State) : (load k w s).fault = false := rfl
@[simp] theorem load_wait (k : Pk) (w : Word) (s : State) : (load k w s).wait = s.wait := rfl
@[simp] theorem load_opened (k : Pk) (w : Word) (s : State) : (load k w s).opened = s.opened := rfl
@[simp] theorem load_cfgRowsM1Q (k : Pk) (w : Word) (s : State) : (load k w s).cfgRowsM1Q = s.cfgRowsM1Q := rfl
@[simp] theorem load_cfgLfQ (k : Pk) (w : Word) (s : State) : (load k w s).cfgLfQ = s.cfgLfQ := rfl
@[simp] theorem load_istate (k : Pk) (w : Word) (s : State) : (load k w s).istate = s.istate := rfl
@[simp] theorem load_txn (k : Pk) (w : Word) (s : State) : (load k w s).txn = s.txn := rfl
@[simp] theorem load_lvl (k : Pk) (w : Word) (s : State) : (load k w s).lvl = s.lvl := rfl
@[simp] theorem load_history (k : Pk) (w : Word) (s : State) : (load k w s).history = s.history := rfl
@[simp] theorem load_now (k : Pk) (w : Word) (s : State) : (load k w s).now = s.now := rfl
@[simp] theorem load_out (k : Pk) (w : Word) (s : State) : (load k w s).out = s.out := rfl
@[simp] theorem load_inputs (k : Pk) (w : Word) (s : State) : (load k w s).inputs = s.inputs := rfl
@[simp] theorem load_draws (k : Pk) (w : Word) (s : State) : (load k w s).draws = s.draws := rfl

/-! ### loadClose -/

@[simp] theorem loadClose_params (w : Word) (s : State) : (loadClose w s).params = s.params := rfl
@[simp] theorem loadClose_mode (w : Word) (s : State) : (loadClose w s).mode = s.mode := rfl
@[simp] theorem loadClose_pk (w : Word) (s : State) : (loadClose w s).pk = .close := rfl
@[simp] theorem loadClose_upc (w : Word) (s : State) : (loadClose w s).upc = 0#7 := rfl
@[simp] theorem loadClose_hWord (w : Word) (s : State) : (loadClose w s).hWord = w := rfl
@[simp] theorem loadClose_hCmask (w : Word) (s : State) : (loadClose w s).hCmask = s.opened := rfl
@[simp] theorem loadClose_pend (w : Word) (s : State) : (loadClose w s).pend = s.pend := rfl
@[simp] theorem loadClose_fault (w : Word) (s : State) : (loadClose w s).fault = false := rfl
@[simp] theorem loadClose_wait (w : Word) (s : State) : (loadClose w s).wait = s.wait := rfl
@[simp] theorem loadClose_opened (w : Word) (s : State) : (loadClose w s).opened = s.opened := rfl
@[simp] theorem loadClose_cfgRowsM1Q (w : Word) (s : State) : (loadClose w s).cfgRowsM1Q = s.cfgRowsM1Q := rfl
@[simp] theorem loadClose_cfgLfQ (w : Word) (s : State) : (loadClose w s).cfgLfQ = s.cfgLfQ := rfl
@[simp] theorem loadClose_istate (w : Word) (s : State) : (loadClose w s).istate = s.istate := rfl
@[simp] theorem loadClose_txn (w : Word) (s : State) : (loadClose w s).txn = s.txn := rfl
@[simp] theorem loadClose_lvl (w : Word) (s : State) : (loadClose w s).lvl = s.lvl := rfl
@[simp] theorem loadClose_history (w : Word) (s : State) : (loadClose w s).history = s.history := rfl
@[simp] theorem loadClose_now (w : Word) (s : State) : (loadClose w s).now = s.now := rfl
@[simp] theorem loadClose_out (w : Word) (s : State) : (loadClose w s).out = s.out := rfl
@[simp] theorem loadClose_inputs (w : Word) (s : State) : (loadClose w s).inputs = s.inputs := rfl
@[simp] theorem loadClose_draws (w : Word) (s : State) : (loadClose w s).draws = s.draws := rfl

/-! ### startWait -/

@[simp] theorem startWait_params (n : Nat) (s : State) : (startWait n s).params = s.params := rfl
@[simp] theorem startWait_mode (n : Nat) (s : State) : (startWait n s).mode = s.mode := rfl
@[simp] theorem startWait_pk (n : Nat) (s : State) : (startWait n s).pk = s.pk := rfl
@[simp] theorem startWait_upc (n : Nat) (s : State) : (startWait n s).upc = s.upc := rfl
@[simp] theorem startWait_hWord (n : Nat) (s : State) : (startWait n s).hWord = s.hWord := rfl
@[simp] theorem startWait_hCmask (n : Nat) (s : State) : (startWait n s).hCmask = s.hCmask := rfl
@[simp] theorem startWait_pend (n : Nat) (s : State) : (startWait n s).pend = s.pend := rfl
@[simp] theorem startWait_fault (n : Nat) (s : State) : (startWait n s).fault = s.fault := rfl
@[simp] theorem startWait_wait (n : Nat) (s : State) : (startWait n s).wait = n % 2 ^ s.params.wWait := rfl
@[simp] theorem startWait_opened (n : Nat) (s : State) : (startWait n s).opened = s.opened := rfl
@[simp] theorem startWait_cfgRowsM1Q (n : Nat) (s : State) : (startWait n s).cfgRowsM1Q = s.cfgRowsM1Q := rfl
@[simp] theorem startWait_cfgLfQ (n : Nat) (s : State) : (startWait n s).cfgLfQ = s.cfgLfQ := rfl
@[simp] theorem startWait_istate (n : Nat) (s : State) : (startWait n s).istate = s.istate := rfl
@[simp] theorem startWait_txn (n : Nat) (s : State) : (startWait n s).txn = s.txn := rfl
@[simp] theorem startWait_lvl (n : Nat) (s : State) : (startWait n s).lvl = s.lvl := rfl
@[simp] theorem startWait_history (n : Nat) (s : State) : (startWait n s).history = s.history := rfl
@[simp] theorem startWait_now (n : Nat) (s : State) : (startWait n s).now = s.now := rfl
@[simp] theorem startWait_out (n : Nat) (s : State) : (startWait n s).out = s.out := rfl
@[simp] theorem startWait_inputs (n : Nat) (s : State) : (startWait n s).inputs = s.inputs := rfl
@[simp] theorem startWait_draws (n : Nat) (s : State) : (startWait n s).draws = s.draws := rfl

/-! ### beginTick -/

@[simp] theorem beginTick_out (s : State) : (beginTick s).out =
    { rqReady := rqReady s.mode s.pk, rsp := none, evReady := false, evInitError := false, status := statusVec s
      ready := readyLevel s, failed := failedLevel s, closed := closedLevel s, req := Pins.const none } := rfl
@[simp] theorem beginTick_params (s : State) : (beginTick s).params = s.params := rfl
@[simp] theorem beginTick_mode (s : State) : (beginTick s).mode = s.mode := rfl
@[simp] theorem beginTick_pk (s : State) : (beginTick s).pk = s.pk := rfl
@[simp] theorem beginTick_upc (s : State) : (beginTick s).upc = s.upc := rfl
@[simp] theorem beginTick_hWord (s : State) : (beginTick s).hWord = s.hWord := rfl
@[simp] theorem beginTick_hCmask (s : State) : (beginTick s).hCmask = s.hCmask := rfl
@[simp] theorem beginTick_pend (s : State) : (beginTick s).pend = s.pend := rfl
@[simp] theorem beginTick_fault (s : State) : (beginTick s).fault = s.fault := rfl
@[simp] theorem beginTick_wait (s : State) : (beginTick s).wait = s.wait := rfl
@[simp] theorem beginTick_opened (s : State) : (beginTick s).opened = s.opened := rfl
@[simp] theorem beginTick_cfgRowsM1Q (s : State) : (beginTick s).cfgRowsM1Q = s.cfgRowsM1Q := rfl
@[simp] theorem beginTick_cfgLfQ (s : State) : (beginTick s).cfgLfQ = s.cfgLfQ := rfl
@[simp] theorem beginTick_istate (s : State) : (beginTick s).istate = s.istate := rfl
@[simp] theorem beginTick_txn (s : State) : (beginTick s).txn = s.txn := rfl
@[simp] theorem beginTick_lvl (s : State) : (beginTick s).lvl = s.lvl := rfl
@[simp] theorem beginTick_history (s : State) : (beginTick s).history = s.history := rfl
@[simp] theorem beginTick_now (s : State) : (beginTick s).now = s.now + 1 := rfl
@[simp] theorem beginTick_inputs (s : State) : (beginTick s).inputs = s.inputs := rfl
@[simp] theorem beginTick_draws (s : State) : (beginTick s).draws = s.draws := rfl

/-! ### resetTick -/

@[simp] theorem resetTick_params (i : TickIn) (s : State) : (resetTick i s).params = s.params := rfl
@[simp] theorem resetTick_mode (i : TickIn) (s : State) : (resetTick i s).mode = .init := rfl
@[simp] theorem resetTick_pk (i : TickIn) (s : State) : (resetTick i s).pk = .init := rfl
@[simp] theorem resetTick_upc (i : TickIn) (s : State) : (resetTick i s).upc = 0#7 := rfl
@[simp] theorem resetTick_hWord (i : TickIn) (s : State) : (resetTick i s).hWord = 0#16 := rfl
@[simp] theorem resetTick_hCmask (i : TickIn) (s : State) : (resetTick i s).hCmask = 0#6 := rfl
@[simp] theorem resetTick_pend (i : TickIn) (s : State) : (resetTick i s).pend = 0#6 := rfl
@[simp] theorem resetTick_fault (i : TickIn) (s : State) : (resetTick i s).fault = false := rfl
@[simp] theorem resetTick_wait (i : TickIn) (s : State) : (resetTick i s).wait = 0 := rfl
@[simp] theorem resetTick_opened (i : TickIn) (s : State) : (resetTick i s).opened = 0#6 := rfl
@[simp] theorem resetTick_cfgRowsM1Q (i : TickIn) (s : State) : (resetTick i s).cfgRowsM1Q = i.cfgRowsM1 := rfl
@[simp] theorem resetTick_cfgLfQ (i : TickIn) (s : State) : (resetTick i s).cfgLfQ = i.cfgLargeFont := rfl
@[simp] theorem resetTick_istate (i : TickIn) (s : State) : (resetTick i s).istate = .poweredUnknown := rfl
@[simp] theorem resetTick_txn (i : TickIn) (s : State) : (resetTick i s).txn = Pins.const .openPin := rfl
@[simp] theorem resetTick_lvl (i : TickIn) (s : State) : (resetTick i s).lvl = Pins.const .x := rfl
@[simp] theorem resetTick_history (i : TickIn) (s : State) : (resetTick i s).history = s.history ++ [.reset 0] := rfl
@[simp] theorem resetTick_now (i : TickIn) (s : State) : (resetTick i s).now = 0 := rfl
@[simp] theorem resetTick_out (i : TickIn) (s : State) : (resetTick i s).out = resetOut := rfl
@[simp] theorem resetTick_inputs (i : TickIn) (s : State) : (resetTick i s).inputs = s.inputs := rfl
@[simp] theorem resetTick_draws (i : TickIn) (s : State) : (resetTick i s).draws = s.draws := rfl

/-! ### finish -/

@[simp] theorem finish_params (f : Bool) (s : State) : (finish f s).params = s.params := by
  unfold finish; cases s.pk <;> cases f <;> rfl
@[simp] theorem finish_upc (f : Bool) (s : State) : (finish f s).upc = s.upc := by
  unfold finish; cases s.pk <;> cases f <;> rfl
@[simp] theorem finish_hWord (f : Bool) (s : State) : (finish f s).hWord = s.hWord := by
  unfold finish; cases s.pk <;> cases f <;> rfl
@[simp] theorem finish_hCmask (f : Bool) (s : State) : (finish f s).hCmask = s.hCmask := by
  unfold finish; cases s.pk <;> cases f <;> rfl
@[simp] theorem finish_pend (f : Bool) (s : State) : (finish f s).pend = s.pend := by
  unfold finish; cases s.pk <;> cases f <;> rfl
@[simp] theorem finish_fault (f : Bool) (s : State) : (finish f s).fault = s.fault := by
  unfold finish; cases s.pk <;> cases f <;> rfl
@[simp] theorem finish_wait (f : Bool) (s : State) : (finish f s).wait = s.wait := by
  unfold finish; cases s.pk <;> cases f <;> rfl
@[simp] theorem finish_opened (f : Bool) (s : State) : (finish f s).opened = s.opened := by
  unfold finish; cases s.pk <;> cases f <;> rfl
@[simp] theorem finish_cfgRowsM1Q (f : Bool) (s : State) : (finish f s).cfgRowsM1Q = s.cfgRowsM1Q := by
  unfold finish; cases s.pk <;> cases f <;> rfl
@[simp] theorem finish_cfgLfQ (f : Bool) (s : State) : (finish f s).cfgLfQ = s.cfgLfQ := by
  unfold finish; cases s.pk <;> cases f <;> rfl
@[simp] theorem finish_txn (f : Bool) (s : State) : (finish f s).txn = s.txn := by
  unfold finish; cases s.pk <;> cases f <;> rfl
@[simp] theorem finish_lvl (f : Bool) (s : State) : (finish f s).lvl = s.lvl := by
  unfold finish; cases s.pk <;> cases f <;> rfl
@[simp] theorem finish_now (f : Bool) (s : State) : (finish f s).now = s.now := by
  unfold finish; cases s.pk <;> cases f <;> rfl
@[simp] theorem finish_inputs (f : Bool) (s : State) : (finish f s).inputs = s.inputs := by
  unfold finish; cases s.pk <;> cases f <;> rfl
@[simp] theorem finish_draws (f : Bool) (s : State) : (finish f s).draws = s.draws := by
  unfold finish; cases s.pk <;> cases f <;> rfl

/-! ### issueMember -/

@[simp] theorem issueMember_params (ops : Pins (Option PinOp)) (p : Chan) (s : State) : (issueMember ops s p).params = s.params := by
  unfold issueMember; split <;> rfl
@[simp] theorem issueMember_mode (ops : Pins (Option PinOp)) (p : Chan) (s : State) : (issueMember ops s p).mode = s.mode := by
  unfold issueMember; split <;> rfl
@[simp] theorem issueMember_pk (ops : Pins (Option PinOp)) (p : Chan) (s : State) : (issueMember ops s p).pk = s.pk := by
  unfold issueMember; split <;> rfl
@[simp] theorem issueMember_upc (ops : Pins (Option PinOp)) (p : Chan) (s : State) : (issueMember ops s p).upc = s.upc := by
  unfold issueMember; split <;> rfl
@[simp] theorem issueMember_hWord (ops : Pins (Option PinOp)) (p : Chan) (s : State) : (issueMember ops s p).hWord = s.hWord := by
  unfold issueMember; split <;> rfl
@[simp] theorem issueMember_hCmask (ops : Pins (Option PinOp)) (p : Chan) (s : State) : (issueMember ops s p).hCmask = s.hCmask := by
  unfold issueMember; split <;> rfl
@[simp] theorem issueMember_fault (ops : Pins (Option PinOp)) (p : Chan) (s : State) : (issueMember ops s p).fault = s.fault := by
  unfold issueMember; split <;> rfl
@[simp] theorem issueMember_wait (ops : Pins (Option PinOp)) (p : Chan) (s : State) : (issueMember ops s p).wait = s.wait := by
  unfold issueMember; split <;> rfl
@[simp] theorem issueMember_opened (ops : Pins (Option PinOp)) (p : Chan) (s : State) : (issueMember ops s p).opened = s.opened := by
  unfold issueMember; split <;> rfl
@[simp] theorem issueMember_cfgRowsM1Q (ops : Pins (Option PinOp)) (p : Chan) (s : State) : (issueMember ops s p).cfgRowsM1Q = s.cfgRowsM1Q := by
  unfold issueMember; split <;> rfl
@[simp] theorem issueMember_cfgLfQ (ops : Pins (Option PinOp)) (p : Chan) (s : State) : (issueMember ops s p).cfgLfQ = s.cfgLfQ := by
  unfold issueMember; split <;> rfl
@[simp] theorem issueMember_istate (ops : Pins (Option PinOp)) (p : Chan) (s : State) : (issueMember ops s p).istate = s.istate := by
  unfold issueMember; split <;> rfl
@[simp] theorem issueMember_lvl (ops : Pins (Option PinOp)) (p : Chan) (s : State) : (issueMember ops s p).lvl = s.lvl := by
  unfold issueMember; split <;> rfl
@[simp] theorem issueMember_now (ops : Pins (Option PinOp)) (p : Chan) (s : State) : (issueMember ops s p).now = s.now := by
  unfold issueMember; split <;> rfl
@[simp] theorem issueMember_inputs (ops : Pins (Option PinOp)) (p : Chan) (s : State) : (issueMember ops s p).inputs = s.inputs := by
  unfold issueMember; split <;> rfl
@[simp] theorem issueMember_draws (ops : Pins (Option PinOp)) (p : Chan) (s : State) : (issueMember ops s p).draws = s.draws := by
  unfold issueMember; split <;> rfl

/-! ### startGroup -/

@[simp] theorem startGroup_params (ops : Pins (Option PinOp)) (s : State) : (startGroup ops s).params = s.params := by
  simp [startGroup, Chan.all]
@[simp] theorem startGroup_mode (ops : Pins (Option PinOp)) (s : State) : (startGroup ops s).mode = s.mode := by
  simp [startGroup, Chan.all]
@[simp] theorem startGroup_pk (ops : Pins (Option PinOp)) (s : State) : (startGroup ops s).pk = s.pk := by
  simp [startGroup, Chan.all]
@[simp] theorem startGroup_upc (ops : Pins (Option PinOp)) (s : State) : (startGroup ops s).upc = s.upc := by
  simp [startGroup, Chan.all]
@[simp] theorem startGroup_hWord (ops : Pins (Option PinOp)) (s : State) : (startGroup ops s).hWord = s.hWord := by
  simp [startGroup, Chan.all]
@[simp] theorem startGroup_hCmask (ops : Pins (Option PinOp)) (s : State) : (startGroup ops s).hCmask = s.hCmask := by
  simp [startGroup, Chan.all]
@[simp] theorem startGroup_fault (ops : Pins (Option PinOp)) (s : State) : (startGroup ops s).fault = s.fault := by
  simp [startGroup, Chan.all]
@[simp] theorem startGroup_wait (ops : Pins (Option PinOp)) (s : State) : (startGroup ops s).wait = s.wait := by
  simp [startGroup, Chan.all]
@[simp] theorem startGroup_opened (ops : Pins (Option PinOp)) (s : State) : (startGroup ops s).opened = s.opened := by
  simp [startGroup, Chan.all]
@[simp] theorem startGroup_cfgRowsM1Q (ops : Pins (Option PinOp)) (s : State) : (startGroup ops s).cfgRowsM1Q = s.cfgRowsM1Q := by
  simp [startGroup, Chan.all]
@[simp] theorem startGroup_cfgLfQ (ops : Pins (Option PinOp)) (s : State) : (startGroup ops s).cfgLfQ = s.cfgLfQ := by
  simp [startGroup, Chan.all]
@[simp] theorem startGroup_istate (ops : Pins (Option PinOp)) (s : State) : (startGroup ops s).istate = s.istate := by
  simp [startGroup, Chan.all]
@[simp] theorem startGroup_lvl (ops : Pins (Option PinOp)) (s : State) : (startGroup ops s).lvl = s.lvl := by
  simp [startGroup, Chan.all]
@[simp] theorem startGroup_now (ops : Pins (Option PinOp)) (s : State) : (startGroup ops s).now = s.now := by
  simp [startGroup, Chan.all]
@[simp] theorem startGroup_inputs (ops : Pins (Option PinOp)) (s : State) : (startGroup ops s).inputs = s.inputs := by
  simp [startGroup, Chan.all]
@[simp] theorem startGroup_draws (ops : Pins (Option PinOp)) (s : State) : (startGroup ops s).draws = s.draws := by
  simp [startGroup, Chan.all]

/-! ### sample -/

@[simp] theorem sample_params (rsp : Pins (Option PinStatus)) (p : Chan) (s : State) : (sample rsp s p).params = s.params := by
  unfold sample; split <;> first | rfl | (split <;> rfl)
@[simp] theorem sample_mode (rsp : Pins (Option PinStatus)) (p : Chan) (s : State) : (sample rsp s p).mode = s.mode := by
  unfold sample; split <;> first | rfl | (split <;> rfl)
@[simp] theorem sample_pk (rsp : Pins (Option PinStatus)) (p : Chan) (s : State) : (sample rsp s p).pk = s.pk := by
  unfold sample; split <;> first | rfl | (split <;> rfl)
@[simp] theorem sample_upc (rsp : Pins (Option PinStatus)) (p : Chan) (s : State) : (sample rsp s p).upc = s.upc := by
  unfold sample; split <;> first | rfl | (split <;> rfl)
@[simp] theorem sample_hWord (rsp : Pins (Option PinStatus)) (p : Chan) (s : State) : (sample rsp s p).hWord = s.hWord := by
  unfold sample; split <;> first | rfl | (split <;> rfl)
@[simp] theorem sample_hCmask (rsp : Pins (Option PinStatus)) (p : Chan) (s : State) : (sample rsp s p).hCmask = s.hCmask := by
  unfold sample; split <;> first | rfl | (split <;> rfl)
@[simp] theorem sample_wait (rsp : Pins (Option PinStatus)) (p : Chan) (s : State) : (sample rsp s p).wait = s.wait := by
  unfold sample; split <;> first | rfl | (split <;> rfl)
@[simp] theorem sample_cfgRowsM1Q (rsp : Pins (Option PinStatus)) (p : Chan) (s : State) : (sample rsp s p).cfgRowsM1Q = s.cfgRowsM1Q := by
  unfold sample; split <;> first | rfl | (split <;> rfl)
@[simp] theorem sample_cfgLfQ (rsp : Pins (Option PinStatus)) (p : Chan) (s : State) : (sample rsp s p).cfgLfQ = s.cfgLfQ := by
  unfold sample; split <;> first | rfl | (split <;> rfl)
@[simp] theorem sample_istate (rsp : Pins (Option PinStatus)) (p : Chan) (s : State) : (sample rsp s p).istate = s.istate := by
  unfold sample; split <;> first | rfl | (split <;> rfl)
@[simp] theorem sample_txn (rsp : Pins (Option PinStatus)) (p : Chan) (s : State) : (sample rsp s p).txn = s.txn := by
  unfold sample; split <;> first | rfl | (split <;> rfl)
@[simp] theorem sample_now (rsp : Pins (Option PinStatus)) (p : Chan) (s : State) : (sample rsp s p).now = s.now := by
  unfold sample; split <;> first | rfl | (split <;> rfl)
@[simp] theorem sample_out (rsp : Pins (Option PinStatus)) (p : Chan) (s : State) : (sample rsp s p).out = s.out := by
  unfold sample; split <;> first | rfl | (split <;> rfl)
@[simp] theorem sample_inputs (rsp : Pins (Option PinStatus)) (p : Chan) (s : State) : (sample rsp s p).inputs = s.inputs := by
  unfold sample; split <;> first | rfl | (split <;> rfl)
@[simp] theorem sample_draws (rsp : Pins (Option PinStatus)) (p : Chan) (s : State) : (sample rsp s p).draws = s.draws := by
  unfold sample; split <;> first | rfl | (split <;> rfl)

/-! ### phase1 -/

@[simp] theorem phase1_params (rsp : Pins (Option PinStatus)) (s : State) : (phase1 rsp s).params = s.params := by
  simp [phase1, Chan.all]
@[simp] theorem phase1_mode (rsp : Pins (Option PinStatus)) (s : State) : (phase1 rsp s).mode = s.mode := by
  simp [phase1, Chan.all]
@[simp] theorem phase1_pk (rsp : Pins (Option PinStatus)) (s : State) : (phase1 rsp s).pk = s.pk := by
  simp [phase1, Chan.all]
@[simp] theorem phase1_upc (rsp : Pins (Option PinStatus)) (s : State) : (phase1 rsp s).upc = s.upc := by
  simp [phase1, Chan.all]
@[simp] theorem phase1_hWord (rsp : Pins (Option PinStatus)) (s : State) : (phase1 rsp s).hWord = s.hWord := by
  simp [phase1, Chan.all]
@[simp] theorem phase1_hCmask (rsp : Pins (Option PinStatus)) (s : State) : (phase1 rsp s).hCmask = s.hCmask := by
  simp [phase1, Chan.all]
@[simp] theorem phase1_wait (rsp : Pins (Option PinStatus)) (s : State) : (phase1 rsp s).wait = s.wait := by
  simp [phase1, Chan.all]
@[simp] theorem phase1_cfgRowsM1Q (rsp : Pins (Option PinStatus)) (s : State) : (phase1 rsp s).cfgRowsM1Q = s.cfgRowsM1Q := by
  simp [phase1, Chan.all]
@[simp] theorem phase1_cfgLfQ (rsp : Pins (Option PinStatus)) (s : State) : (phase1 rsp s).cfgLfQ = s.cfgLfQ := by
  simp [phase1, Chan.all]
@[simp] theorem phase1_istate (rsp : Pins (Option PinStatus)) (s : State) : (phase1 rsp s).istate = s.istate := by
  simp [phase1, Chan.all]
@[simp] theorem phase1_txn (rsp : Pins (Option PinStatus)) (s : State) : (phase1 rsp s).txn = s.txn := by
  simp [phase1, Chan.all]
@[simp] theorem phase1_now (rsp : Pins (Option PinStatus)) (s : State) : (phase1 rsp s).now = s.now := by
  simp [phase1, Chan.all]
@[simp] theorem phase1_out (rsp : Pins (Option PinStatus)) (s : State) : (phase1 rsp s).out = s.out := by
  simp [phase1, Chan.all]
@[simp] theorem phase1_inputs (rsp : Pins (Option PinStatus)) (s : State) : (phase1 rsp s).inputs = s.inputs := by
  simp [phase1, Chan.all]
@[simp] theorem phase1_draws (rsp : Pins (Option PinStatus)) (s : State) : (phase1 rsp s).draws = s.draws := by
  simp [phase1, Chan.all]

/-! ### startItem -/

@[simp] theorem startItem_params (item : Item) (s : State) : (startItem item s).params = s.params := by
  cases item <;> simp [startItem]
@[simp] theorem startItem_mode (item : Item) (s : State) : (startItem item s).mode = s.mode := by
  cases item <;> simp [startItem]
@[simp] theorem startItem_pk (item : Item) (s : State) : (startItem item s).pk = s.pk := by
  cases item <;> simp [startItem]
@[simp] theorem startItem_upc (item : Item) (s : State) : (startItem item s).upc = s.upc + 1#7 := by
  cases item <;> simp [startItem]
@[simp] theorem startItem_hWord (item : Item) (s : State) : (startItem item s).hWord = s.hWord := by
  cases item <;> simp [startItem]
@[simp] theorem startItem_hCmask (item : Item) (s : State) : (startItem item s).hCmask = s.hCmask := by
  cases item <;> simp [startItem]
@[simp] theorem startItem_fault (item : Item) (s : State) : (startItem item s).fault = s.fault := by
  cases item <;> simp [startItem]
@[simp] theorem startItem_opened (item : Item) (s : State) : (startItem item s).opened = s.opened := by
  cases item <;> simp [startItem]
@[simp] theorem startItem_cfgRowsM1Q (item : Item) (s : State) : (startItem item s).cfgRowsM1Q = s.cfgRowsM1Q := by
  cases item <;> simp [startItem]
@[simp] theorem startItem_cfgLfQ (item : Item) (s : State) : (startItem item s).cfgLfQ = s.cfgLfQ := by
  cases item <;> simp [startItem]
@[simp] theorem startItem_istate (item : Item) (s : State) : (startItem item s).istate = (if s.pk = .init then icode s.upc.toNat else s.istate) := by
  cases item <;> simp [startItem]
@[simp] theorem startItem_lvl (item : Item) (s : State) : (startItem item s).lvl = s.lvl := by
  cases item <;> simp [startItem]
@[simp] theorem startItem_now (item : Item) (s : State) : (startItem item s).now = s.now := by
  cases item <;> simp [startItem]
@[simp] theorem startItem_inputs (item : Item) (s : State) : (startItem item s).inputs = s.inputs := by
  cases item <;> simp [startItem]
@[simp] theorem startItem_draws (item : Item) (s : State) : (startItem item s).draws = s.draws := by
  cases item <;> simp [startItem]

end Sys2Proof.Machine
end

