-- ==== Sys2Proof/Laws/Phases.lean ====
section
/-! SUPPORT. What phase 1, a group's start, phase 2 and phase 3 do, each said once. -/

namespace Sys2Proof.Machine

/-- The answer phase 1 takes on a channel: a response counts only while a transaction is outstanding (R73, R74). -/
def answer (rsp : Pins (Option PinStatus)) (s : State) (p : Chan) : Option PinStatus :=
  if hasBit s.pend p then rsp.get p else none

/-- The `Complete` events of phase 1, in ascending p (R149). -/
def completions (rsp : Pins (Option PinStatus)) (s : State) : List Event :=
  Chan.all.filterMap fun p => (answer rsp s p).map fun st => .complete s.now p st

/-- The `Issue` events of a group's start, in ascending p (R142). -/
def groupEvents (t : Nat) (ops : Pins (Option PinOp)) : List Event :=
  Chan.all.filterMap fun p => (ops.get p).map fun op => .issue t p op

/-- R76's `opened` column on the channel itself. -/
def openBit (op : PinOp) (st : PinStatus) (old : Bool) : Bool :=
  match op, st with
  | .openPin, .ok => true
  | .openPin, .fault => old
  | .write _, _ => old
  | .closePin, _ => false

@[simp] theorem hasBit_openedAfter (op : PinOp) (st : PinStatus) (p q : Chan) (m : ChanSet) :
    hasBit (openedAfter op st p m) q = if q = p then openBit op st (hasBit m p) else hasBit m q := by
  cases op <;> cases st <;> by_cases h : q = p <;> simp [openedAfter, openBit, h]

/-! ### One sample -/

theorem sample_pend (rsp : Pins (Option PinStatus)) (s : State) (p q : Chan) :
    hasBit (sample rsp s p).pend q = (hasBit s.pend q && !(decide (q = p) && (rsp.get p).isSome)) := by
  unfold sample
  split
  · split
    · by_cases h : q = p <;> simp_all
    · by_cases h : q = p <;> simp_all
  · simp_all

theorem sample_lvl (rsp : Pins (Option PinStatus)) (s : State) (p q : Chan) :
    (sample rsp s p).lvl.get q =
      if q = p then (match answer rsp s p with
        | some st => levelAfter (s.txn.get p) st (s.lvl.get p)
        | none => s.lvl.get p)
      else s.lvl.get q := by
  unfold sample answer
  by_cases h : q = p
  · subst h; cases hr : rsp.get q <;> cases hb : hasBit s.pend q <;> simp
  · cases hr : rsp.get p <;> cases hb : hasBit s.pend p <;> simp [h]

theorem sample_opened (rsp : Pins (Option PinStatus)) (s : State) (p q : Chan) :
    hasBit (sample rsp s p).opened q =
      if q = p then (match answer rsp s p with
        | some st => openBit (s.txn.get p) st (hasBit s.opened p)
        | none => hasBit s.opened p)
      else hasBit s.opened q := by
  unfold sample answer
  by_cases h : q = p
  · subst h; cases hr : rsp.get q <;> cases hb : hasBit s.pend q <;> simp
  · cases hr : rsp.get p <;> cases hb : hasBit s.pend p <;> simp [h]

theorem sample_fault (rsp : Pins (Option PinStatus)) (s : State) (p : Chan) :
    (sample rsp s p).fault = (s.fault || decide (answer rsp s p = some .fault)) := by
  unfold sample answer
  cases hr : rsp.get p <;> cases hb : hasBit s.pend p <;> simp

theorem sample_history (rsp : Pins (Option PinStatus)) (s : State) (p : Chan) :
    (sample rsp s p).history = s.history ++ ((answer rsp s p).map fun st => Event.complete s.now p st).toList := by
  unfold sample answer
  cases hr : rsp.get p <;> cases hb : hasBit s.pend p <;> simp

/-! ### Phase 1 -/

/-- A channel stays outstanding exactly when it was outstanding and got no response (R73). -/
theorem phase1_pend (rsp : Pins (Option PinStatus)) (s : State) (q : Chan) :
    hasBit (phase1 rsp s).pend q = (hasBit s.pend q && (rsp.get q).isNone) := by
  cases q <;> simp [phase1, Chan.all, sample_pend]

theorem sample_answer (rsp : Pins (Option PinStatus)) (s : State) (p q : Chan) (h : q ≠ p) :
    answer rsp (sample rsp s p) q = answer rsp s q := by
  simp [answer, sample_pend, h]

theorem phase1_lvl (rsp : Pins (Option PinStatus)) (s : State) (q : Chan) :
    (phase1 rsp s).lvl.get q =
      match answer rsp s q with
      | some st => levelAfter (s.txn.get q) st (s.lvl.get q)
      | none => s.lvl.get q := by
  cases q <;> simp [phase1, Chan.all, sample_lvl, sample_answer]

theorem phase1_opened (rsp : Pins (Option PinStatus)) (s : State) (q : Chan) :
    hasBit (phase1 rsp s).opened q =
      match answer rsp s q with
      | some st => openBit (s.txn.get q) st (hasBit s.opened q)
      | none => hasBit s.opened q := by
  cases q <;> simp [phase1, Chan.all, sample_opened, sample_answer]

theorem phase1_fault (rsp : Pins (Option PinStatus)) (s : State) :
    (phase1 rsp s).fault = (s.fault || Chan.all.any fun p => decide (answer rsp s p = some .fault)) := by
  simp [phase1, Chan.all, sample_fault, sample_answer, Bool.or_assoc]

theorem phase1_history (rsp : Pins (Option PinStatus)) (s : State) :
    (phase1 rsp s).history = s.history ++ completions rsp s := by
  simp only [phase1, Chan.all, completions, List.foldl, sample_history, sample_now, List.append_assoc]
  simp only [sample_answer, ne_eq, reduceCtorEq, not_false_eq_true]
  congr 1
  simp only [List.filterMap_cons, List.filterMap_nil]
  cases answer rsp s .rs <;> cases answer rsp s .e <;> cases answer rsp s .d0 <;> cases answer rsp s .d1 <;>
    cases answer rsp s .d2 <;> cases answer rsp s .d3 <;> rfl

/-! ### A group's start -/

theorem issueMember_pend (ops : Pins (Option PinOp)) (s : State) (p q : Chan) :
    hasBit (issueMember ops s p).pend q = (hasBit s.pend q || (decide (q = p) && (ops.get p).isSome)) := by
  unfold issueMember
  cases h : ops.get p <;> by_cases hq : q = p <;> simp [hq]

theorem issueMember_txn (ops : Pins (Option PinOp)) (s : State) (p q : Chan) :
    (issueMember ops s p).txn.get q = if q = p then (ops.get p).getD (s.txn.get p) else s.txn.get q := by
  unfold issueMember
  cases h : ops.get p <;> by_cases hq : q = p <;> simp [hq]

theorem issueMember_history (ops : Pins (Option PinOp)) (s : State) (p : Chan) :
    (issueMember ops s p).history = s.history ++ ((ops.get p).map fun op => Event.issue s.now p op).toList := by
  unfold issueMember
  cases h : ops.get p <;> simp

theorem issueMember_out (ops : Pins (Option PinOp)) (s : State) (p : Chan) :
    (issueMember ops s p).out.rsp = s.out.rsp ∧ (issueMember ops s p).out.rqReady = s.out.rqReady ∧
      (issueMember ops s p).out.evReady = s.out.evReady ∧ (issueMember ops s p).out.evInitError = s.out.evInitError := by
  unfold issueMember
  cases h : ops.get p <;> simp

/-- After a group's start its members are outstanding, beside whatever was (R142). -/
theorem startGroup_pend (ops : Pins (Option PinOp)) (s : State) (q : Chan) :
    hasBit (startGroup ops s).pend q = (hasBit s.pend q || (ops.get q).isSome) := by
  cases q <;> simp [startGroup, Chan.all, issueMember_pend]

theorem startGroup_txn (ops : Pins (Option PinOp)) (s : State) (q : Chan) :
    (startGroup ops s).txn.get q = (ops.get q).getD (s.txn.get q) := by
  cases q <;> simp [startGroup, Chan.all, issueMember_txn]

theorem startGroup_history (ops : Pins (Option PinOp)) (s : State) :
    (startGroup ops s).history = s.history ++ groupEvents s.now ops := by
  simp only [startGroup, Chan.all, groupEvents, List.foldl, issueMember_history, issueMember_now, List.append_assoc]
  congr 1
  simp only [List.filterMap_cons, List.filterMap_nil]
  cases ops.get .rs <;> cases ops.get .e <;> cases ops.get .d0 <;> cases ops.get .d1 <;>
    cases ops.get .d2 <;> cases ops.get .d3 <;> rfl

/-- The group's operations are the requests driven on the pin channels; the other channels are as before (R72). -/
theorem startGroup_req (ops : Pins (Option PinOp)) (s : State) (q : Chan) :
    (startGroup ops s).out.req.get q = (ops.get q).or (s.out.req.get q) := by
  have member : ∀ (s : State) (p q : Chan), (issueMember ops s p).out.req.get q =
      if q = p then (ops.get p).or (s.out.req.get p) else s.out.req.get q := by
    intro s p q
    unfold issueMember
    by_cases hq : q = p
    · subst hq; cases h : ops.get q <;> simp
    · cases h : ops.get p <;> simp [hq]
  cases q <;> simp [startGroup, Chan.all, member]

/-- A group's start leaves the status and the levels of the tick as they are. -/
theorem startGroup_levels (ops : Pins (Option PinOp)) (s : State) :
    (startGroup ops s).out.status = s.out.status ∧ (startGroup ops s).out.ready = s.out.ready ∧
      (startGroup ops s).out.failed = s.out.failed ∧ (startGroup ops s).out.closed = s.out.closed := by
  have member : ∀ (s : State) (p : Chan), (issueMember ops s p).out.status = s.out.status ∧
      (issueMember ops s p).out.ready = s.out.ready ∧ (issueMember ops s p).out.failed = s.out.failed ∧
      (issueMember ops s p).out.closed = s.out.closed := by
    intro s p
    unfold issueMember
    cases h : ops.get p <;> simp
  simp [startGroup, Chan.all, member]

theorem startGroup_out (ops : Pins (Option PinOp)) (s : State) :
    (startGroup ops s).out.rsp = s.out.rsp ∧ (startGroup ops s).out.rqReady = s.out.rqReady ∧
      (startGroup ops s).out.evReady = s.out.evReady ∧ (startGroup ops s).out.evInitError = s.out.evInitError := by
  simp [startGroup, Chan.all, issueMember_out]

/-! ### Phase 2 -/

/-- Everything the part of R144 after the holds can do. -/
theorem advance_cases {s t : State} (h : advance s = .next t) :
    (s.fault = true ∧ t = finish true s) ∨
    (s.fault = false ∧ s.upc.toNat = (prog s).length ∧ t = finish false s) ∨
    (s.fault = false ∧ ∃ item, (prog s)[s.upc.toNat]? = some item ∧ t = startItem item s) := by
  unfold advance at h
  split at h
  · left; cases h; exact ⟨by assumption, rfl⟩
  · rename_i hf
    have hf' : s.fault = false := by simpa using hf
    split at h
    · right; left; cases h; exact ⟨hf', by assumption, rfl⟩
    · split at h
      · right; right; cases h; exact ⟨hf', _, by assumption, rfl⟩
      · cases h

/-- Everything phase 2 can do (R144): nothing while no program runs or a group is in flight, a wait counted down, or an
advance. -/
theorem phase2_cases {s t : State} (h : phase2 s = .next t) :
    (s.pk = .none ∧ t = s) ∨
    (s.pk ≠ .none ∧ s.pend ≠ 0#6 ∧ t = s) ∨
    (s.pk ≠ .none ∧ s.pend = 0#6 ∧ 1 < s.wait ∧ t = { s with wait := s.wait - 1 }) ∨
    (s.pk ≠ .none ∧ s.pend = 0#6 ∧ s.wait ≤ 1 ∧ advance { s with wait := 0 } = .next t) := by
  unfold phase2 at h
  split at h
  · cases h; exact .inl ⟨by assumption, rfl⟩
  · split at h
    · cases h; exact .inr (.inl ⟨by assumption, by assumption, rfl⟩)
    · rename_i hp
      split at h
      · cases h
        exact .inr (.inr (.inl ⟨by assumption, by simpa using hp, by omega, rfl⟩))
      · rename_i hw
        have h0 : s.wait - 1 = 0 := by omega
        rw [h0] at h
        exact .inr (.inr (.inr ⟨by assumption, by simpa using hp, by omega, h⟩))

/-- Phase 2 does nothing while no program runs. -/
theorem phase2_idle {s : State} (h : s.pk = .none) : phase2 s = .next s := by simp [phase2, h]

/-- Phase 2 does nothing while a group is in flight. -/
theorem phase2_hold {s : State} (h : s.pend ≠ 0#6) : phase2 s = .next s := by
  unfold phase2; split
  · rfl
  · rfl

/-! ### Phase 3 -/

/-- What presenting a request can do (R148, R299). -/
theorem request_cases (legal : Bool) (admits : Mode → Bool) (loaded : State → State) (s : State) :
    ((s.mode = .init ∨ s.mode = .closed) ∧ request legal admits loaded s = raiseError .notReady s) ∨
    (s.mode ≠ .init ∧ s.mode ≠ .closed ∧ s.pk ≠ .none ∧ request legal admits loaded s = s) ∨
    (s.mode ≠ .init ∧ s.mode ≠ .closed ∧ s.pk = .none ∧ legal = false ∧
      request legal admits loaded s = raiseError .invalidValue s) ∨
    (s.mode ≠ .init ∧ s.mode ≠ .closed ∧ s.pk = .none ∧ legal = true ∧ admits s.mode = true ∧
      request legal admits loaded s = loaded s) ∨
    (s.mode ≠ .init ∧ s.mode ≠ .closed ∧ s.pk = .none ∧ legal = true ∧ admits s.mode = false ∧
      request legal admits loaded s = raiseError .notReady s) := by
  unfold request
  by_cases h1 : s.mode = .init ∨ s.mode = .closed
  · exact .inl ⟨h1, by simp [h1]⟩
  · rw [not_or] at h1
    by_cases h2 : s.pk = .none
    · cases legal
      · exact .inr (.inr (.inl ⟨h1.1, h1.2, h2, rfl, by simp [h1.1, h1.2, h2]⟩))
      · cases h3 : admits s.mode
        · exact .inr (.inr (.inr (.inr ⟨h1.1, h1.2, h2, rfl, rfl, by simp [h1.1, h1.2, h2]⟩)))
        · exact .inr (.inr (.inr (.inl ⟨h1.1, h1.2, h2, rfl, rfl, by simp [h1.1, h1.2, h2]⟩)))
    · exact .inr (.inl ⟨h1.1, h1.2, h2, by simp [h1.1, h1.2, h2]⟩)

end Sys2Proof.Machine
end

