-- ==== Sys2Proof/Laws/Programs.lean ====
section
/-! SUPPORT. What the items of the micro-programs can be, and how long the programs are (R140, R170, R190, R241, R271). -/

namespace Sys2Proof.Machine

/-- The program is a function of these fields alone (R140). -/
theorem prog_congr {s t : State} (hk : t.pk = s.pk) (hw : t.hWord = s.hWord) (hm : t.hCmask = s.hCmask)
    (hr : t.cfgRowsM1Q = s.cfgRowsM1Q) (hl : t.cfgLfQ = s.cfgLfQ) (hp : t.params = s.params) : prog t = prog s := by
  unfold prog; rw [hk, hw, hm, hr, hl, hp]

@[simp] theorem beginTick_prog (s : State) : prog (beginTick s) = prog s := rfl

/-- The wait counter is no part of what the program is made from (R140). -/
theorem prog_setWait (s : State) (n : Nat) : prog { s with wait := n } = prog s := rfl

@[simp] theorem phase1_prog (rsp : Pins (Option PinStatus)) (s : State) : prog (phase1 rsp s) = prog s := by
  apply prog_congr <;> simp

/-- A group that only writes levels. -/
def WritesOnly (item : Item) : Prop :=
  ∃ ops, item = .group ops ∧ ∀ p op, ops.get p = some op → ∃ v, op = .write v

theorem writesOnly_writeOne (p : Chan) (v : Bool) : WritesOnly (writeOne p v) := by
  refine ⟨_, rfl, fun q op h => ⟨v, ?_⟩⟩
  rw [Pins.get_set] at h
  split at h
  · simpa using h.symm
  · rw [noOps, Pins.get_const] at h; cases h

theorem writesOnly_dataGroup (v : Nibble) : WritesOnly (dataGroup v) := by
  refine ⟨_, rfl, fun q op h => ?_⟩
  cases q <;> simp only [Pins.get] at h <;> cases h <;> exact ⟨_, rfl⟩

theorem mem_nibble {c : Params} {v : Nibble} {item : Item} (h : item ∈ nibble c v) :
    WritesOnly item ∨ item = .wait c.nStrobe := by
  simp only [nibble, List.mem_cons, List.not_mem_nil, or_false] at h
  rcases h with rfl | rfl | rfl | rfl
  · exact .inl (writesOnly_dataGroup v)
  · exact .inl (writesOnly_writeOne _ _)
  · exact .inr rfl
  · exact .inl (writesOnly_writeOne _ _)

theorem mem_frame {c : Params} {b : Byte} {m : Bool} {item : Item} (h : item ∈ frame c b m) :
    WritesOnly item ∨ item = .wait c.nStrobe := by
  simp only [frame, List.mem_cons, List.mem_append] at h
  rcases h with rfl | h | h
  · exact .inl (writesOnly_writeOne _ _)
  · exact mem_nibble h
  · exact mem_nibble h

theorem mem_settle {c : Params} {st : Bool} {item : Item} (h : item ∈ settle c st) : item = .wait c.nLong := by
  cases st
  · simp [settle] at h
  · simpa [settle] using h

/-- INIT after its opens: groups of writes, and waits of the parameters' counts. -/
theorem mem_initProg_tail {c : Params} {rm1 : BitVec 2} {lf : Bool} {item : Item}
    (h : item ∈ (initProg c rm1 lf).tail) : WritesOnly item ∨ ∃ n ∈ Config.counts c, item = .wait n := by
  have strobe : item = .wait c.nStrobe → ∃ n ∈ Config.counts c, item = .wait n :=
    fun h => ⟨c.nStrobe, by simp [Config.counts], h⟩
  have e : (initProg c rm1 lf).tail =
      .group (Pins.const (some (.write false))) :: .wait c.nPowerOn ::
        (nibble c 0x3#4 ++ (.wait c.nW1 :: (nibble c 0x3#4 ++ (.wait c.nW2 :: (nibble c 0x3#4 ++
          (.wait c.nW3 :: (nibble c 0x2#4 ++ (frame c (functionSet rm1 lf) false ++ (frame c 0x10#8 false ++
            (frame c 0x0C#8 false ++ (frame c 0x06#8 false ++ (frame c 0x01#8 false ++ [.wait c.nLong])))))))))))) := rfl
  rw [e] at h
  simp only [List.mem_append, List.mem_cons, List.not_mem_nil, or_false] at h
  rcases h with rfl | h | h | h | h | h | h | h | h | h | h | h | h | h | h
  · refine .inl ⟨_, rfl, fun p op h => ⟨false, ?_⟩⟩
    rw [Pins.get_const] at h; exact (Option.some.inj h).symm
  all_goals first
    | exact (mem_nibble h).imp id strobe
    | exact (mem_frame h).imp id strobe
    | exact .inr ⟨_, by simp [Config.counts], h⟩

@[simp] theorem initProg_length (c : Params) (rm1 : BitVec 2) (lf : Bool) : (initProg c rm1 lf).length = 68 := rfl

/-- INIT is 22 items, the function-set frame, and 37 items; only the frame looks at the configuration (R241, R253). -/
theorem initProg_split (c : Params) : ∃ before after : List Item, before.length = 22 ∧ after.length = 37 ∧
    ∀ (rm1 : BitVec 2) (lf : Bool), initProg c rm1 lf = before ++ (frame c (functionSet rm1 lf) false ++ after) := by
  refine ⟨[.group (Pins.const (some .openPin)), .group (Pins.const (some (.write false))), .wait c.nPowerOn]
      ++ nibble c 0x3#4 ++ [.wait c.nW1] ++ nibble c 0x3#4 ++ [.wait c.nW2] ++ nibble c 0x3#4 ++ [.wait c.nW3]
      ++ nibble c 0x2#4,
    frame c 0x10#8 false ++ frame c 0x0C#8 false ++ frame c 0x06#8 false ++ frame c 0x01#8 false ++ [.wait c.nLong],
    rfl, rfl, fun rm1 lf => ?_⟩
  unfold initProg
  simp only [List.append_assoc]

/-- Every count of a wait in the running program is one of the parameters' counts (R140, R241). -/
theorem wait_mem_prog {s : State} {n : Nat} (h : Item.wait n ∈ prog s) : n ∈ Config.counts s.params := by
  have strobe : WritesOnly (.wait n) ∨ Item.wait n = .wait s.params.nStrobe → n ∈ Config.counts s.params := by
    rintro (⟨_, e, -⟩ | e)
    · cases e
    · cases e; simp [Config.counts]
  have long : Item.wait n = .wait s.params.nLong → n ∈ Config.counts s.params := by
    intro e; cases e; simp [Config.counts]
  unfold prog at h
  split at h
  · have e : initProg s.params s.cfgRowsM1Q s.cfgLfQ =
        .group (Pins.const (some .openPin)) :: (initProg s.params s.cfgRowsM1Q s.cfgLfQ).tail := rfl
    rw [e, List.mem_cons] at h
    rcases h with h | h
    · cases h
    · rcases mem_initProg_tail h with ⟨_, e, -⟩ | ⟨m, hm, e⟩
      · cases e
      · cases e; exact hm
  · exact (List.mem_append.1 h).elim (fun h => strobe (mem_nibble h)) fun h => long (mem_settle h)
  · exact (List.mem_append.1 h).elim (fun h => strobe (mem_frame h)) fun h => long (mem_settle h)
  · unfold closeProg at h; split at h <;> simp at h
  · simp at h

/-- A legal parameter set's counts fit the wait register (R13). -/
theorem count_range {c : Params} (hl : Config.legal c = true) {n : Nat} (h : n ∈ Config.counts c) :
    1 ≤ n ∧ n < 2 ^ c.wWait := by
  unfold Config.legal at hl
  simpa using List.all_eq_true.1 hl n h

theorem prog_length_le (s : State) : (prog s).length ≤ 68 := by
  unfold prog; split
  · exact Nat.le_of_eq (initProg_length _ _ _)
  · simp [nibble, settle]; split <;> simp
  · simp [frame, nibble, settle]; split <;> simp
  · unfold closeProg; split <;> simp
  · simp

/-- Where an item is left, `upc` counts on without wrapping (R33). -/
theorem upc_succ {s : State} {item : Item} (h : (prog s)[s.upc.toNat]? = some item) :
    (s.upc + 1#7).toNat = s.upc.toNat + 1 ∧ s.upc + 1#7 ≠ 0#7 := by
  have := (List.getElem?_eq_some_iff.1 h).1
  have := prog_length_le s
  have e : (s.upc + 1#7).toNat = s.upc.toNat + 1 := by rw [BitVec.toNat_add]; simp; omega
  refine ⟨e, fun h0 => ?_⟩
  rw [h0] at e; simp at e

theorem nibble_length (c : Params) (v : Nibble) : (nibble c v).length = 4 := rfl

theorem frame_length (c : Params) (b : Byte) (m : Bool) : (frame c b m).length = 9 := rfl

end Sys2Proof.Machine
end

