-- ==== Sys2Proof/Laws/Ticks.lean ====
section
/-! SUPPORT. What the finish, an item's start, phase 3 and a whole tick can do, each said once, and how the history's readings
grow. -/

namespace Sys2Proof.Machine

/-! ### Finish and item start -/

theorem finish_pk (f : Bool) (s : State) : (finish f s).pk = .none := by
  unfold finish; cases e : s.pk <;> cases f <;> simp [e]

theorem finish_mode (f : Bool) (s : State) : (finish f s).mode =
    (match s.pk, f with
      | .init, false => .ready
      | .init, true => .failed
      | .close, _ => .closed
      | _, _ => s.mode) := by
  unfold finish; cases e : s.pk <;> cases f <;> simp

theorem finish_istate (f : Bool) (s : State) : (finish f s).istate =
    (match s.pk, f with
      | .init, false => .ready
      | _, _ => s.istate) := by
  unfold finish; cases e : s.pk <;> cases f <;> simp

/-- A finish records one event, and none while no program runs (R146). -/
theorem finish_history (f : Bool) (s : State) : (finish f s).history = s.history ++
    (match s.pk, f with
      | .none, _ => []
      | .init, false => [.ready s.now]
      | .init, true => [.initError s.now .pinFault]
      | _, false => [.response s.now .ok]
      | _, true => [.response s.now .pinFault]) := by
  unfold finish; cases e : s.pk <;> cases f <;> simp

/-- An item's start records the issues of its group, in ascending p (R142). -/
theorem startItem_history (item : Item) (s : State) : (startItem item s).history = s.history ++
    (match item with
      | .group ops => groupEvents s.now ops
      | .wait _ => []) := by
  cases item <;> simp [startItem, startGroup_history]

/-- A finish drives the pulse of its one event, and no other output (R146, R296). -/
theorem finish_out (f : Bool) (s : State) : (finish f s).out =
    (match s.pk, f with
      | .none, _ => s.out
      | .init, false => { s.out with evReady := true }
      | .init, true => { s.out with evInitError := true }
      | _, false => { s.out with rsp := some .ok }
      | _, true => { s.out with rsp := some .pinFault }) := by
  unfold finish; cases e : s.pk <;> cases f <;> simp

/-! ### Membership of the events of a phase -/

/-- Phase 1 records Complete events only. -/
theorem mem_completions {rsp : Pins (Option PinStatus)} {s : State} {ev : Event} (h : ev ∈ completions rsp s) :
    ∃ p st, ev = .complete s.now p st ∧ answer rsp s p = some st := by
  simp only [completions, List.mem_filterMap] at h
  obtain ⟨p, -, h⟩ := h
  cases ha : answer rsp s p with
  | none => simp [ha] at h
  | some st => rw [ha] at h; exact ⟨p, st, (Option.some.inj h).symm, ha⟩

/-- A group's start records the Issue events of its members only. -/
theorem mem_groupEvents {t : Nat} {ops : Pins (Option PinOp)} {ev : Event} :
    ev ∈ groupEvents t ops ↔ ∃ p op, ev = .issue t p op ∧ ops.get p = some op := by
  simp only [groupEvents, List.mem_filterMap]
  constructor
  · rintro ⟨p, -, h⟩
    cases hp : ops.get p with
    | none => simp [hp] at h
    | some op => rw [hp] at h; exact ⟨p, op, (Option.some.inj h).symm, hp⟩
  · rintro ⟨p, op, rfl, hp⟩; exact ⟨p, Chan.mem_all p, by rw [hp]; rfl⟩

/-! ### The phases with nothing to do -/

/-- With nothing outstanding every response is ignored (R74). -/
theorem phase1_idle {rsp : Pins (Option PinStatus)} {s : State} (h : s.pend = 0#6) : phase1 rsp s = s := by
  have hb : ∀ p, hasBit s.pend p = false := ChanSet.eq_zero_iff.1 h
  have hs : ∀ p, sample rsp s p = s := by
    intro p; unfold sample; split <;> simp [hb]
  simp [phase1, Chan.all, hs]

theorem answer_some {rsp : Pins (Option PinStatus)} {s : State} {p : Chan} {st : PinStatus}
    (h : answer rsp s p = some st) : hasBit s.pend p = true ∧ rsp.get p = some st := by
  unfold answer at h; split at h <;> simp_all

/-! ### Phase 3 -/

/-- Everything phase 3 can do (R147, R148): nothing, a rejection, the load of a nibble or a frame, the load of CLOSE. -/
theorem phase3_cases {rq : Option Word} {m : Mode} {k : Pk} {s t : State} (h : phase3 rq m k s = .next t) :
    ((rq = none ∨ rqReady m k = false) ∧ t = s) ∨
    (∃ w, rq = some w ∧ rqReady m k = true ∧
      ((s.mode ≠ .init ∧ s.mode ≠ .closed ∧ s.pk ≠ .none ∧ m ≠ .init ∧ m ≠ .closed ∧ t = s) ∨
        t = raiseError .notReady s ∨ t = raiseError .invalidValue s ∨
        (∃ r kind, decode w = .ok r ∧ m ≠ .init ∧ m ≠ .closed ∧ s.mode = .ready ∧ s.pk = .none ∧
          (kind = .nib ∨ kind = .frame) ∧ t = load kind (encode r) s) ∨
        (decode w = .ok .close ∧ m ≠ .init ∧ m ≠ .closed ∧ (s.mode = .ready ∨ s.mode = .failed) ∧ s.pk = .none ∧
          t = loadClose (encode .close) s))) := by
  unfold phase3 at h
  split at h
  · cases h; exact .inl ⟨.inl rfl, rfl⟩
  · rename_i w
    split at h
    · cases h; exact .inl ⟨.inr (by assumption), rfl⟩
    · rename_i hq
      refine .inr ⟨w, rfl, by simpa using hq, ?_⟩
      split at h
      · cases h; exact .inr (.inl rfl)
      · rename_i hm
        rw [not_or] at hm
        split at h
        · cases h; exact .inr (.inr (.inl rfl))
        · rename_i r hd
          have key : ∀ (legal : Bool) (admits : Mode → Bool) (loaded : State → State),
              Host.Outcome.next (request legal admits loaded s) = (.next t : Host.Outcome State Fault Refusal) →
              (s.mode ≠ .init ∧ s.mode ≠ .closed ∧ s.pk ≠ .none ∧ m ≠ .init ∧ m ≠ .closed ∧ t = s) ∨
              t = raiseError .notReady s ∨ t = raiseError .invalidValue s ∨
              (s.pk = .none ∧ admits s.mode = true ∧ t = loaded s) := by
            intro legal admits loaded e
            cases e
            rcases request_cases legal admits loaded s with ⟨-, e⟩ | ⟨h1, h2, h3, e⟩ | ⟨-, -, -, -, e⟩ |
              ⟨-, -, h1, -, h2, e⟩ | ⟨-, -, -, -, -, e⟩ <;> rw [e]
            · exact .inr (.inl rfl)
            · exact .inl ⟨h1, h2, h3, hm.1, hm.2, rfl⟩
            · exact .inr (.inr (.inl rfl))
            · exact .inr (.inr (.inr ⟨h1, h2, rfl⟩))
            · exact .inr (.inl rfl)
          cases r with
          | cmd b st =>
            refine (key _ _ _ h).imp id (Or.imp id (Or.imp id ?_))
            rintro ⟨h1, h2, e⟩
            exact .inl ⟨_, .frame, hd, hm.1, hm.2, by simpa [readyOnly] using h2, h1, .inr rfl, e⟩
          | data b st =>
            refine (key _ _ _ h).imp id (Or.imp id (Or.imp id ?_))
            rintro ⟨h1, h2, e⟩
            exact .inl ⟨_, .frame, hd, hm.1, hm.2, by simpa [readyOnly] using h2, h1, .inr rfl, e⟩
          | nib v st =>
            refine (key _ _ _ h).imp id (Or.imp id (Or.imp id ?_))
            rintro ⟨h1, h2, e⟩
            exact .inl ⟨_, .nib, hd, hm.1, hm.2, by simpa [readyOnly] using h2, h1, .inl rfl, e⟩
          | close =>
            refine (key _ _ _ h).imp id (Or.imp id (Or.imp id ?_))
            rintro ⟨h1, h2, e⟩
            exact .inr ⟨hd, hm.1, hm.2, by simpa [readyOrFailed] using h2, h1, e⟩

/-! ### The tick -/

theorem andThen_next {o : Host.Outcome State Fault Refusal} {f : State → Host.Outcome State Fault Refusal} {t : State}
    (h : andThen o f = .next t) : ∃ u, o = .next u ∧ f u = .next t := by
  cases o with
  | next u => exact ⟨u, rfl, h⟩
  | fault r => cases h
  | refused r => cases h

/-- A tick that is no reset tick is its phase 2 and then its phase 3 (R141). -/
theorem tick_cases {i : TickIn} {s t : State} (hr : i.rst = false) (h : tick i s = .next t) :
    ∃ u, phase2 (phase1 i.rsp (beginTick s)) = .next u ∧ phase3 i.rq s.mode s.pk u = .next t := by
  unfold tick at h
  rw [hr] at h
  exact andThen_next h

/-- While no program runs and nothing is outstanding the first two phases do nothing. -/
theorem idle_phases {i : TickIn} {s : State} (hk : s.pk = .none) (hp : s.pend = 0#6) :
    phase2 (phase1 i.rsp (beginTick s)) = .next (beginTick s) := by
  rw [phase1_idle (by simpa using hp), phase2_idle (by simpa using hk)]

/-! ### Readings of the history -/

@[simp] theorem responses_append (h k : List Event) : responses (h ++ k) = responses h + responses k := by simp [responses]

@[simp] theorem issues_append (h k : List Event) : issues (h ++ k) = issues h + issues k := by simp [issues]

@[simp] theorem responses_completions (rsp : Pins (Option PinStatus)) (s : State) : responses (completions rsp s) = 0 := by
  simp only [responses, completions, List.countP_eq_zero, List.mem_filterMap]
  rintro e ⟨p, -, h⟩
  cases ha : answer rsp s p <;> simp [ha] at h
  subst h; simp

@[simp] theorem issues_completions (rsp : Pins (Option PinStatus)) (s : State) : issues (completions rsp s) = 0 := by
  simp only [issues, completions, List.countP_eq_zero, List.mem_filterMap]
  rintro e ⟨p, -, h⟩
  cases ha : answer rsp s p <;> simp [ha] at h
  subst h; simp

@[simp] theorem responses_groupEvents (t : Nat) (ops : Pins (Option PinOp)) : responses (groupEvents t ops) = 0 := by
  simp only [responses, groupEvents, List.countP_eq_zero, List.mem_filterMap]
  rintro e ⟨p, -, h⟩
  cases ha : ops.get p <;> simp [ha] at h
  subst h; simp

/-- A longer history is read on from where the shorter one ended. -/
theorem replay_append (h k : List Event) : replay (h ++ k) = k.foldl Replay.read (replay h) := by simp [replay]

end Sys2Proof.Machine
end

