-- ==== Sys2Proof/Machine/Assembler.lean ====
section
/-! DEFINITION. The assembler syntax of R111 (spec/30_encoding.md): one request a line, `;` starts a comment.
DESIGN CHOICE (log entry 20): mnemonics and `S` are upper case, and blanks may stand around an operand and a comma. -/

namespace Sys2Proof.Machine

/-- Why a line produces no word: "An operand out of range is an assembler error and produces no word" (R111). -/
inductive AsmError where
  | badMnemonic
  | badOperand
  | outOfRange
  | trailingText
deriving DecidableEq, Repr

/-- The line without its comment; a quoted `;` is no comment. -/
def stripComment : List Char → List Char
  | [] => []
  | '\'' :: c :: '\'' :: rest => '\'' :: c :: '\'' :: stripComment rest
  | c :: rest => if c = ';' then [] else c :: stripComment rest

/-- A blank. -/
def isBlank (c : Char) : Bool := decide (c = ' ' ∨ c = '\t')

/-- The value of a digit in a base. -/
def digitIn (base : Nat) (c : Char) : Option Nat :=
  let n := c.toNat
  let v := if 48 ≤ n ∧ n ≤ 57 then n - 48 else if 97 ≤ n ∧ n ≤ 102 then n - 87 else if 65 ≤ n ∧ n ≤ 70 then n - 55 else 16
  if v < base then some v else none

/-- A nonempty numeral in a base. -/
def numeral (base : Nat) : List Char → Option Nat
  | [] => none
  | c :: cs => (c :: cs).foldl (fun a d => a.bind fun n => (digitIn base d).map fun v => n * base + v) (some 0)

/-- An integer in decimal or as `0x..` (R111). -/
def number (cs : List Char) : Option Nat :=
  match cs with
  | '0' :: 'x' :: hex => numeral 16 hex
  | _ => numeral 10 cs

/-- The operand at the front of a text, and the text after it; a character literal only where `chars` says so. -/
def operand (chars : Bool) (cs : List Char) : Option (Nat × List Char) :=
  match chars, cs with
  | true, '\'' :: c :: '\'' :: rest => some (c.toNat, rest)
  | _, _ => (number (cs.takeWhile fun c => !(isBlank c || decide (c = ',')))).map
      fun n => (n, cs.dropWhile fun c => !(isBlank c || decide (c = ',')))

/-- What follows an operand: nothing, or `, S`. -/
def settleMark (cs : List Char) : Option Bool :=
  match cs.dropWhile isBlank with
  | [] => some false
  | ',' :: rest =>
    match rest.dropWhile isBlank with
    | 'S' :: tail => if tail.dropWhile isBlank = [] then some true else none
    | _ => none
  | _ => none

/-- One operand below a bound and a settle mark. -/
def operandLine (chars : Bool) (bound : Nat) (build : Nat → Bool → Instr) (cs : List Char) : Except AsmError Instr :=
  match operand chars (cs.dropWhile isBlank) with
  | none => .error .badOperand
  | some (n, rest) =>
    match settleMark rest with
    | none => .error .trailingText
    | some st => if n < bound then .ok (build n st) else .error .outOfRange

/-- A line: `none` for a line that holds no request. -/
def parseLine (line : List Char) : Except AsmError (Option Instr) :=
  let cs := (stripComment line).dropWhile isBlank
  let rest := cs.dropWhile fun c => !isBlank c
  match cs.takeWhile fun c => !isBlank c with
  | [] => .ok none
  | ['C', 'M', 'D'] => (operandLine false 256 (fun n st => .cmd (BitVec.ofNat 8 n) st) rest).map some
  | ['D', 'A', 'T', 'A'] => (operandLine true 256 (fun n st => .data (BitVec.ofNat 8 n) st) rest).map some
  | ['N', 'I', 'B'] => (operandLine false 16 (fun n st => .nib (BitVec.ofNat 8 n) st) rest).map some
  | ['C', 'L', 'O', 'S', 'E'] => if rest.dropWhile isBlank = [] then .ok (some .close) else .error .trailingText
  | _ => .error .badMnemonic

/-- The word of a line (R111). -/
def assembleLine (line : List Char) : Except AsmError (Option Word) := (parseLine line).map fun o => o.map encode

end Sys2Proof.Machine
end

