-- ==== Sys2Proof/Tests/Slice0.lean ====
section
/-! SUPPORT. The model's own tests. Expected values come from spec/95_test_vectors.md, spec/opcode_table.json and the rules
named at each test. The `witness_` theorems show that the hypotheses of an obligation hold together somewhere. -/

namespace Sys2Proof.Tests

open Sys2Proof.Machine

/-! ## Small states -/

/-- The state an outcome leads to. -/
def after (o : Host.Outcome State Fault Refusal) : State :=
  match o with
  | .next s => s
  | .fault _ => State.reset
  | .refused _ => State.reset

/-- The state after reset with the short parameter set P_T (R12). -/
def resetT : State := { State.reset with params := Config.pT }

/-- READY and idle with every pin open: its history opens the six pins and nothing more. -/
def readyT : State :=
  { resetT with
    mode := .ready
    pk := .none
    upc := 68#7
    opened := 0b111111#6
    istate := .ready
    history := .reset 0 ::
      (Chan.all.map (fun p => Event.issue 1 p .openPin) ++ Chan.all.map fun p => Event.complete 2 p .ok) }

/-- FAILED and idle, with the enable channel open. -/
def failedT : State := { resetT with mode := .failed, pk := .none, upc := 1#7, opened := 0b000010#6 }

/-- CLOSED, everything released. -/
def closedT : State :=
  { readyT with mode := .closed, opened := 0b000000#6, lvl := Pins.const .rel, hCmask := 0b111111#6, hWord := 0x3000#16 }

/-- A CLOSE has just been accepted in READY. -/
def closingT : State := after (exec .close readyT)

/-- The closing group has been issued and nothing has answered. -/
def closingIssued : State := after (tick quiet closingT)

/-- NIB 5 with its last item, E low, in flight. -/
def nibLast : State :=
  { readyT with pk := .nib, upc := 4#7, hWord := 0x2005#16, pend := 0b000010#6, txn := readyT.txn.set .e (.write false) }

/-- NIB 5 in its strobe hold. -/
def nibWaiting : State := { readyT with pk := .nib, upc := 3#7, hWord := 0x2005#16, wait := 1 }

/-- INIT in its last wait, in the wait's last tick. -/
def initLast : State := { resetT with upc := 68#7, wait := 1, opened := 0b111111#6, istate := .cleared }

/-- INIT with its opens in flight. -/
def initOpening : State := { resetT with upc := 1#7, pend := 0b111111#6 }

/-- Every outstanding transaction fails. -/
def faultAll : TickIn := { quiet with rsp := Pins.const (some .fault) }

/-- A reset input. -/
def resetIn : TickIn := { quiet with rst := true, cfgRowsM1 := 3#2, cfgLargeFont := true }

/-! ## WellFormed -/

theorem test_wide_nib_is_ill_formed : (Instr.nib 0x13#8 false).wellFormed = false := by decide

theorem test_legal_nib_is_well_formed : (Instr.nib 0x0F#8 true).wellFormed = true := by decide

/-! ## Decoding (V1 to V20) -/

/-- V2 to V4. -/
theorem test_decode_cmd :
    decode 0b0001000000000000#16 = .ok (.cmd 0x00#8 false) ∧ decode 0b0001000011111111#16 = .ok (.cmd 0xFF#8 false) ∧
    decode 0b0001000111111111#16 = .ok (.cmd 0xFF#8 true) := ⟨rfl, rfl, rfl⟩

/-- V5, V6, W2. -/
theorem test_decode_data :
    decode 0b0001001000000000#16 = .ok (.data 0x00#8 false) ∧ decode 0b0001001111111111#16 = .ok (.data 0xFF#8 true) ∧
    decode 0b0001001001000001#16 = .ok (.data 0x41#8 false) := ⟨rfl, rfl, rfl⟩

/-- V10 to V12. -/
theorem test_decode_nib :
    decode 0b0010000000000000#16 = .ok (.nib 0x00#8 false) ∧ decode 0b0010000000001111#16 = .ok (.nib 0x0F#8 false) ∧
    decode 0b0010000100000101#16 = .ok (.nib 0x05#8 true) := ⟨rfl, rfl, rfl⟩

/-- R107. -/
theorem test_decode_close : decode 0b0011000000000000#16 = .ok .close := rfl

/-- V1, V7 to V9, V13 and the other edges of R104 to R107's ranges. -/
theorem test_decode_invalid :
    decode 0x0000#16 = .error .reservedOp ∧ decode 0x0FFF#16 = .error .reservedOp ∧ decode 0x1400#16 = .error .reservedBits ∧
    decode 0x1800#16 = .error .reservedBits ∧ decode 0x1C41#16 = .error .reservedBits ∧
    decode 0x2010#16 = .error .nibNotFourBits ∧ decode 0x2110#16 = .error .nibNotFourBits ∧
    decode 0x2200#16 = .error .nibRegisterSelect ∧ decode 0x3001#16 = .error .closeOperand ∧
    decode 0x4000#16 = .error .reservedOp ∧ decode 0xFFFF#16 = .error .reservedOp :=
  ⟨rfl, rfl, rfl, rfl, rfl, rfl, rfl, rfl, rfl, rfl, rfl⟩

/-- R101: a table word longer than 16 bits is no request. -/
theorem test_table_word : decodeTableWord 16 0x1241 = some (.data 0x41#8 false) ∧ decodeTableWord 24 0x11241 = none := by decide

/-! ## Fetch: the step after a placed word runs it -/

theorem test_step_runs_placed_cmd :
    step (State.reset.withFetchWord 16 0x1101) =
      exec (.cmd 0x01#8 true) (beginTick { State.reset.withFetchWord 16 0x1101 with inputs := [] }) := rfl

theorem test_step_runs_placed_close :
    step (State.reset.withFetchWord 16 0x3000) =
      exec .close (beginTick { State.reset.withFetchWord 16 0x3000 with inputs := [] }) := rfl

/-! ## The four requests, one step each -/

/-- R192, V4: `h_word`, `pk`, `upc`. -/
theorem test_cmd :
    (after (exec (.cmd 0x01#8 true) readyT)).hWord = 0x1101#16 ∧ (after (exec (.cmd 0x01#8 true) readyT)).pk = .frame ∧
    (after (exec (.cmd 0x01#8 true) readyT)).upc = 0#7 := by decide

/-- R299: in INIT an accepted CMD answers NotReady and loads nothing. -/
theorem test_cmd_in_init :
    (after (exec (.cmd 0x01#8 true) resetT)).out.rsp = some .notReady ∧
    (after (exec (.cmd 0x01#8 true) resetT)).hWord = 0x0000#16 := by decide

/-- R193, W2, W3: the first item of `DATA 0x41` drives RS high. -/
theorem test_data :
    (after (exec (.data 0x41#8 false) readyT)).hWord = 0x1241#16 ∧
    (prog (after (exec (.data 0x41#8 false) readyT)))[0]? = some (writeOne .rs true) := by decide

/-- R294: DATA in FAILED answers NotReady. -/
theorem test_data_in_failed : (after (exec (.data 0x41#8 false) failedT)).out.rsp = some .notReady := by decide

/-- W1: `NIB 0x5` writes D0..D3 = 1,0,1,0. -/
theorem test_nib :
    (prog (after (exec (.nib 0x05#8 false) readyT)))[0]? =
      some (.group { rs := none, e := none, d0 := some (.write true), d1 := some (.write false)
                     d2 := some (.write true), d3 := some (.write false) }) := by decide

/-- V13, R102: a value that is no 4-bit value answers InvalidValue. -/
theorem test_nib_wide : (after (exec (.nib 0x10#8 false) readyT)).out.rsp = some .invalidValue := by decide

/-- R270: CLOSE in FAILED captures the open channels. -/
theorem test_close : closingT.pk = .close ∧ (after (exec .close failedT)).hCmask = 0b000010#6 := by decide

/-- R273: a second CLOSE answers NotReady. -/
theorem test_close_when_closed :
    (after (exec .close closedT)).out.rsp = some .notReady ∧ (after (exec .close closedT)).mode = .closed := by decide

/-! ## Ticks -/

/-- R49, R41: the status at reset, and S_READY's. -/
theorem test_status : statusVec State.reset = 0x04#8 ∧ statusVec readyT = 0x81#8 := by decide

/-- R142, R271: the closing group issues six closes in one tick, and answering them ends CLOSED with every level REL. -/
theorem test_close_group :
    closingIssued.out.req = Pins.const (some .closePin) ∧ closingIssued.pend = 0b111111#6 ∧
    (after (tick answerAll closingIssued)).lvl = Pins.const .rel ∧
    (after (tick answerAll closingIssued)).out.rsp = some .ok := by decide

/-- R249: a pin fault in INIT ends in FAILED with the InitError pulse. -/
theorem test_init_fault :
    (after (tick faultAll initOpening)).mode = .failed ∧ (after (tick faultAll initOpening)).out.evInitError = true := by decide

/-- R247: INIT's last tick makes `istate` 8 and pulses Ready. -/
theorem test_init_ready :
    (after (tick quiet initLast)).mode = .ready ∧ (after (tick quiet initLast)).istate = .ready ∧
    (after (tick quiet initLast)).out.evReady = true := by decide

/-- R346: reset wins over everything else in its tick. -/
theorem test_reset_wins :
    (after (tick { resetIn with rq := some 0x1101#16, rsp := Pins.const (some .fault) } nibLast)).mode = .init ∧
    (after (tick { resetIn with rq := some 0x1101#16, rsp := Pins.const (some .fault) } nibLast)).cfgRowsM1Q = 3#2 := by decide

/-- W5: the function-set bytes. -/
theorem test_function_set :
    functionSet 0#2 false = 0x20#8 ∧ functionSet 0#2 true = 0x24#8 ∧ functionSet 1#2 true = 0x28#8 ∧
    functionSet 3#2 false = 0x28#8 := by decide

/-- R76: while E's low write is in flight from high, either level is possible; and while a close is in flight too (the
model's choice, log entry 16). -/
theorem test_possible_level :
    (possibleLevel { nibLast with lvl := nibLast.lvl.set .e .high } .e false = true) ∧
    (possibleLevel { closingIssued with lvl := Pins.const .high } .e false = true) ∧
    (possibleLevel { readyT with lvl := Pins.const .high } .e false = false) := by decide

/-! ## The host layer -/

/-- W6, W7. -/
theorem test_fixed_commands :
    (plan ⟨1#2, .later⟩ HostRegs.initial .clear).requests.map encode = [0x1101#16] ∧ dcByte HostRegs.initial = 0x0C#8 ∧
    emByte HostRegs.initial = 0x06#8 := by decide

/-- W9.1, R213: the row clamps to the last row. -/
theorem test_set_cursor_clamps :
    plan ⟨1#2, .later⟩ HostRegs.initial (.setCur 3 9) = plan ⟨1#2, .later⟩ HostRegs.initial (.setCur 3 1) := by decide

/-- R213: the row table a host has without a choice is the later one, and its third row starts at 0x10. -/
theorem test_default_table :
    plan { rowsM1 := 3#2 } HostRegs.initial (.setCur 0 2) = { requests := [.cmd 0x90#8 false], thenInvalid := false } := by decide

/-- W9.3, W9.4: PRINT starts at 0 for 80 characters and at 80 for 161. -/
theorem test_print_start : printStart 80 = 0 ∧ printStart 161 = 80 := by decide

/-- R111. -/
theorem test_assembler :
    assembleLine ['C', 'M', 'D', ' ', '0', 'x', '0', '1', ',', ' ', 'S', ' ', ';', 'x'] = .ok (some 0x1101#16) ∧
    assembleLine ['D', 'A', 'T', 'A', ' ', '\'', 'A', '\''] = .ok (some 0x1241#16) ∧
    assembleLine ['N', 'I', 'B', ' ', '1', '6'] = .error .outOfRange := ⟨rfl, rfl, rfl⟩

/-! ## States that meet the invariant -/

/-- A state with nothing running that meets the invariant. -/
theorem idle_inv {s : State} (hp : Config.legal s.params = true) (hm : legalPair s.mode s.pk = true) (hk : s.pk = .none)
    (h0 : s.pend = 0#6) (hw : s.wait = 0) (hr : s.mode = .ready → s.istate = .ready ∧ s.opened = 0b111111#6)
    (hc : s.mode = .closed → s.opened = 0#6) : BlockInv s where
  params := hp
  modePk := hm
  idle _ := ⟨h0, hw⟩
  upcRange h := absurd hk h
  waitRange := by rw [hw]; exact Nat.two_pow_pos _
  waiting h := by omega
  outstanding p h := by rw [h0] at h; cases p <;> cases h
  held := by rw [hk]; trivial
  istateInit h := by rw [h, hk] at hm; cases hm
  istateReady h := (hr h).1
  fresh h := absurd hk h
  initFresh h := by rw [h, hk] at hm; cases hm
  initOpens h := by rw [h, hk] at hm; cases hm
  readyOpen h _ := (hr h).2
  closing h := by rw [hk] at h; cases h
  closedReleased := hc

theorem readyT_inv : BlockInv readyT :=
  idle_inv (by decide) (by decide) rfl rfl rfl (fun _ => ⟨rfl, rfl⟩) (fun h => by cases h)

theorem failedT_inv : BlockInv failedT :=
  idle_inv (by decide) (by decide) rfl rfl rfl (fun h => by cases h) (fun h => by cases h)

theorem closedT_inv : BlockInv closedT :=
  idle_inv (by decide) (by decide) rfl rfl rfl (fun h => by cases h) (fun _ => rfl)

/-- A running state that meets the invariant; the fields that differ among the states below are arguments. -/
theorem running_inv {s : State} (hp : Config.legal s.params = true) (hm : legalPair s.mode s.pk = true) (hk : s.pk ≠ .none)
    (hu : s.upc.toNat ≤ (prog s).length) (hr : s.wait < 2 ^ s.params.wWait)
    (hw : 0 < s.wait → s.pend = 0#6 ∧ s.fault = false ∧ ∃ n, currentItem s = some (.wait n) ∧ s.wait ≤ n)
    (ho : ∀ p, hasBit s.pend p = true → ∃ ops, currentItem s = some (.group ops) ∧ ops.get p = some (s.txn.get p))
    (hh : heldFits s.pk s.hWord) (hi : s.mode = .init → s.istate = icode (s.upc.toNat - 1))
    (hir : s.mode = .ready → s.istate = .ready) (hf : s.fault = false)
    (h0 : s.mode = .init → s.upc = 0#7 → s.opened = 0#6)
    (h1 : s.mode = .init → s.upc ≠ 0#7 → ∀ p, hasBit s.opened p = true ∨ s.fault = true ∨ (s.upc = 1#7 ∧ hasBit s.pend p = true))
    (h2 : s.mode = .ready → s.pk ≠ .close → s.opened = 0b111111#6)
    (h3 : s.pk = .close → ∀ p, hasBit s.opened p = true → hasBit s.hCmask p = true ∧ (s.upc = 0#7 ∨ hasBit s.pend p = true)) :
    BlockInv s where
  params := hp
  modePk := hm
  idle h := absurd h hk
  upcRange _ := hu
  waitRange := hr
  waiting := hw
  outstanding := ho
  held := hh
  istateInit := hi
  istateReady := hir
  fresh _ _ := hf
  initFresh := h0
  initOpens := h1
  readyOpen := h2
  closing := h3
  closedReleased h := by
    rw [h] at hm; simp [legalPair] at hm; exact absurd hm hk

theorem resetT_inv : BlockInv resetT := by
  refine running_inv (by decide) (by decide) (by decide) (by decide) (by decide) (fun h => by cases h) ?_ trivial
    (fun _ => rfl) (fun h => by cases h) rfl (fun _ _ => rfl) (fun _ h => absurd rfl h) (fun h => by cases h)
    (fun h => by cases h)
  intro p h; cases p <;> cases h

theorem closingIssued_inv : BlockInv closingIssued := by
  refine running_inv (by decide) (by decide) (by decide) (by decide) (by decide) (fun h => by cases h) ?_ rfl
    (fun h => by cases h) (fun _ => rfl) rfl (fun h => by cases h) (fun h => by cases h) (fun _ h => absurd rfl h) ?_
  · intro p _; exact ⟨Pins.const (some .closePin), by decide, by cases p <;> rfl⟩
  · intro _ p _; exact ⟨by cases p <;> rfl, .inr (by cases p <;> rfl)⟩

theorem nibLast_inv : BlockInv nibLast := by
  refine running_inv (by decide) (by decide) (by decide) (by decide) (by decide) (fun h => by cases h) ?_
    ⟨0x05#8, false, rfl⟩ (fun h => by cases h) (fun _ => rfl) rfl (fun h => by cases h) (fun h => by cases h)
    (fun _ _ => rfl) (fun h => by cases h)
  intro p h; exact ⟨noOps.set .e (some (.write false)), by decide, by cases p <;> first | rfl | cases h⟩

theorem initLast_inv : BlockInv initLast := by
  refine running_inv (by decide) (by decide) (by decide) (by decide) (by decide) (fun _ => ⟨rfl, rfl, 4, by decide, by decide⟩)
    ?_ trivial (fun _ => rfl) (fun h => by cases h) rfl (fun _ h => by cases h) (fun _ _ p => .inl (by cases p <;> rfl))
    (fun h => by cases h) (fun h => by cases h)
  intro p h; cases p <;> cases h

theorem initOpening_inv : BlockInv initOpening := by
  refine running_inv (by decide) (by decide) (by decide) (by decide) (by decide) (fun h => by cases h) ?_ trivial
    (fun _ => rfl) (fun h => by cases h) rfl (fun _ h => by cases h)
    (fun _ _ p => .inr (.inr ⟨rfl, by cases p <;> rfl⟩)) (fun h => by cases h) (fun h => by cases h)
  intro p _; exact ⟨Pins.const (some .openPin), by decide, by cases p <;> rfl⟩

theorem readyT_agrees : HistoryAgrees readyT := ⟨by decide, by decide, by decide, by decide⟩

theorem resetT_agrees : HistoryAgrees resetT := ⟨by decide, by decide, by decide, by decide⟩

/-! ## Witnesses: the hypotheses of each obligation hold together -/

/-- A state with one word presented in its next tick. -/
def withWord (w : Word) (s : State) : State := { s with inputs := [presentWord w] }

/-- A state whose next tick is a reset tick. -/
def withReset (s : State) : State := { s with inputs := [resetIn] }

theorem noReset_replicate (n : Nat) {i : TickIn} (h : i.rst = false) : NoReset (List.replicate n i) := by
  intro j hj; rw [List.eq_of_mem_replicate hj]; exact h

theorem witness_DecodeOfEncodedRequest : (Instr.nib 0x0F#8 true).wellFormed = true ∧ Instr.close.wellFormed = true := by decide

theorem witness_EncodeOfDecodedWord : decode 0x210F#16 = .ok (.nib 0x0F#8 true) := rfl

/-- The ends of R104 to R107's ranges, and the words next to them. -/
theorem witness_LegalWordRanges :
    decode 0x1000#16 = .ok (.cmd 0x00#8 false) ∧ decode 0x11FF#16 = .ok (.cmd 0xFF#8 true) ∧
    decode 0x1200#16 = .ok (.data 0x00#8 false) ∧ decode 0x13FF#16 = .ok (.data 0xFF#8 true) ∧
    decode 0x2000#16 = .ok (.nib 0x00#8 false) ∧ decode 0x200F#16 = .ok (.nib 0x0F#8 false) ∧
    decode 0x2100#16 = .ok (.nib 0x00#8 true) ∧ decode 0x210F#16 = .ok (.nib 0x0F#8 true) ∧
    decode 0x3000#16 = .ok .close ∧ decode 0x0FFF#16 = .error .reservedOp ∧ decode 0x1400#16 = .error .reservedBits ∧
    decode 0x2010#16 = .error .nibNotFourBits ∧ decode 0x20FF#16 = .error .nibNotFourBits ∧
    decode 0x2FFF#16 = .error .reservedBits ∧ decode 0x3001#16 = .error .closeOperand :=
  ⟨rfl, rfl, rfl, rfl, rfl, rfl, rfl, rfl, rfl, rfl, rfl, rfl, rfl, rfl, rfl⟩

/-- One word of each class of R109, and a word of none. -/
theorem witness_InvalidWordClasses :
    wordOp 0x0FFF#16 = 0#4 ∧ 4 ≤ (wordOp 0x4000#16).toNat ∧ wordRsv 0x1400#16 ≠ 0#2 ∧
    (wordOp 0x2200#16 = 2#4 ∧ wordRs 0x2200#16 = true) ∧
    (wordOp 0x2010#16 = 2#4 ∧ (0x2010#16).extractLsb' 4 4 ≠ 0#4) ∧
    (wordOp 0x3001#16 = 3#4 ∧ (0x3001#16) ≠ 0x3000#16) ∧ decode 0x3000#16 = .ok .close :=
  ⟨rfl, by decide, by decide, ⟨rfl, rfl⟩, ⟨rfl, by decide⟩, ⟨rfl, by decide⟩, rfl⟩

theorem witness_StepRunsDecodedWord :
    ((nextInput (withWord 0x1101#16 readyT)).rst = false ∧ (nextInput (withWord 0x1101#16 readyT)).rq = some 0x1101#16 ∧
      decode 0x1101#16 = .ok (.cmd 0x01#8 true) ∧ (withWord 0x1101#16 readyT).pk = .none ∧
      (withWord 0x1101#16 readyT).mode = .ready) ∧
    ((nextInput (withWord 0x3000#16 failedT)).rq = some 0x3000#16 ∧ (withWord 0x3000#16 failedT).pk = .none ∧
      (withWord 0x3000#16 failedT).mode = .failed) := ⟨⟨rfl, rfl, rfl, rfl, rfl⟩, rfl, rfl, rfl⟩

theorem witness_StepRunsPlacedWord :
    decodeTableWord 16 0x1101 = some (.cmd 0x01#8 true) ∧ decodeTableWord 16 0x210F = some (.nib 0x0F#8 true) := ⟨rfl, rfl⟩

/-- READY and idle, for CmdLoadsCommandFrame and DataLoadsDataFrame, which take any byte. -/
theorem witness_CmdLoadsCommandFrame : readyT.mode = .ready ∧ readyT.pk = .none := ⟨rfl, rfl⟩

theorem witness_DataLoadsDataFrame : readyT.mode = .ready ∧ readyT.pk = .none := ⟨rfl, rfl⟩

theorem witness_NibLoadsNibble : readyT.mode = .ready ∧ readyT.pk = .none ∧ (0x0F#8).toNat < 16 := ⟨rfl, rfl, by decide⟩

theorem witness_NibRejectsWideValue :
    readyT.mode = .ready ∧ readyT.pk = .none ∧ failedT.mode = .failed ∧ failedT.pk = .none ∧ 16 ≤ (0x10#8).toNat :=
  ⟨rfl, rfl, rfl, rfl, by decide⟩

theorem witness_CloseLoadsRelease :
    readyT.mode = .ready ∧ readyT.pk = .none ∧ failedT.mode = .failed ∧ failedT.pk = .none := ⟨rfl, rfl, rfl, rfl⟩

/-- One state for each clause. -/
theorem witness_RequestsTurnedAway :
    resetT.mode = .init ∧ closedT.mode = .closed ∧
    (failedT.mode = .failed ∧ failedT.pk = .none ∧ (Instr.nib 0x0F#8 false).wellFormed = true ∧
      Instr.nib 0x0F#8 false ≠ .close) ∧
    (closingT.mode = .ready ∧ closingT.pk ≠ .none) := ⟨rfl, rfl, ⟨rfl, rfl, by decide, by decide⟩, rfl, by decide⟩

theorem witness_NotReadyInInitAndClosed :
    (BlockInv resetT ∧ resetT.mode = .init) ∧ (BlockInv closedT ∧ closedT.mode = .closed) ∧
    (presentWord 0x3000#16).rst = false ∧ (presentWord 0x3000#16).rq = some 0x3000#16 :=
  ⟨⟨resetT_inv, rfl⟩, ⟨closedT_inv, rfl⟩, rfl, rfl⟩

theorem witness_NotReadyInFailed :
    BlockInv failedT ∧ failedT.mode = .failed ∧ failedT.pk = .none ∧ (presentWord 0x1241#16).rst = false ∧
    (presentWord 0x1241#16).rq = some 0x1241#16 ∧ decode 0x1241#16 = .ok (.data 0x41#8 false) ∧
    Instr.data 0x41#8 false ≠ .close := ⟨failedT_inv, rfl, rfl, rfl, rfl, rfl, by decide⟩

theorem witness_InvalidValueForInvalidWord :
    (BlockInv readyT ∧ readyT.mode = .ready ∧ readyT.pk = .none) ∧
    (BlockInv failedT ∧ failedT.mode = .failed ∧ failedT.pk = .none) ∧ (presentWord 0x3001#16).rst = false ∧
    (presentWord 0x3001#16).rq = some 0x3001#16 ∧ decode 0x3001#16 = .error .closeOperand :=
  ⟨⟨readyT_inv, rfl, rfl⟩, ⟨failedT_inv, rfl, rfl⟩, rfl, rfl, rfl⟩

/-- A tick that takes its word, a busy one that does not, and a reset tick. -/
theorem witness_WordTakenOnlyWhenReady :
    (∃ t, tick (presentWord 0x1101#16) readyT = .next t ∧ t.out.rqReady = true) ∧
    (∃ t, tick (presentWord 0x1101#16) closingT = .next t ∧ t.out.rqReady = false) ∧
    (∃ t, tick resetIn readyT = .next t ∧ t.out.rqReady = false) := ⟨⟨_, rfl, rfl⟩, ⟨_, rfl, rfl⟩, ⟨_, rfl, rfl⟩⟩

/-- A word that is executed in READY, and CLOSE executed in FAILED. -/
theorem witness_HeldWordIsLastExecuted :
    (BlockInv readyT ∧ (∃ t, tick (presentWord 0x1101#16) readyT = .next t ∧ t.hWord ≠ readyT.hWord) ∧
      readyT.pk = .none ∧ decode 0x1101#16 = .ok (.cmd 0x01#8 true)) ∧
    (BlockInv failedT ∧ (∃ t, tick (presentWord 0x3000#16) failedT = .next t ∧ t.hWord ≠ failedT.hWord) ∧
      failedT.pk = .none) :=
  ⟨⟨readyT_inv, ⟨_, rfl, by decide⟩, rfl, rfl⟩, failedT_inv, ⟨_, rfl, by decide⟩, rfl⟩

/-- A load; an item after a group (INIT's second), and one after a wait (the E-low write of a nibble). -/
theorem witness_LoadedProgramStartsNextTick :
    (BlockInv readyT ∧ readyT.pk = .none ∧ exec .close readyT = .next closingT ∧ closingT.pk ≠ .none ∧
      quiet.rst = false ∧ quiet.rq = none ∧ (prog closingT)[0]? = some (.group (Pins.const (some .closePin)))) ∧
    (answerAll.rst = false ∧ initOpening.pk ≠ .none ∧ (phase1 answerAll.rsp (beginTick initOpening)).pend = 0#6 ∧
      (phase1 answerAll.rsp (beginTick initOpening)).wait ≤ 1 ∧
      (phase1 answerAll.rsp (beginTick initOpening)).fault = false ∧
      (prog (phase1 answerAll.rsp (beginTick initOpening)))[1]? = some (.group (Pins.const (some (.write false))))) ∧
    (nibWaiting.pk ≠ .none ∧ (phase1 quiet.rsp (beginTick nibWaiting)).pend = 0#6 ∧
      (phase1 quiet.rsp (beginTick nibWaiting)).wait = 1 ∧ (phase1 quiet.rsp (beginTick nibWaiting)).fault = false ∧
      (prog (phase1 quiet.rsp (beginTick nibWaiting)))[3]? = some (writeOne .e false)) :=
  ⟨⟨readyT_inv, rfl, rfl, by decide, rfl, rfl, by decide⟩, ⟨rfl, by decide, by decide, by decide, by decide, by decide⟩,
    by decide, by decide, by decide, by decide, by decide⟩

theorem witness_OneResponsePerAcceptedWord :
    BlockInv readyT ∧ (presentWord 0x1101#16).rst = false ∧
    (∃ t, tick (presentWord 0x1101#16) readyT = .next t ∧ owed t = 1) ∧ taken (presentWord 0x1101#16) readyT = 1 :=
  ⟨readyT_inv, rfl, ⟨_, rfl, by decide⟩, by decide⟩

/-- A tick with Complete events and a Response. -/
theorem witness_SameTickEventOrder :
    BlockInv closingIssued ∧ answerAll.rst = false ∧ ∃ t, tick answerAll closingIssued = .next t ∧
      t.history.length = closingIssued.history.length + 7 := ⟨closingIssued_inv, rfl, _, rfl, by decide⟩

/-- A Response, a Ready and an InitError, each in its tick. -/
theorem witness_PulseOutputs :
    (BlockInv closingIssued ∧ ∃ t, tick answerAll closingIssued = .next t ∧ t.out.rsp = some .ok) ∧
    (BlockInv initLast ∧ ∃ t, tick quiet initLast = .next t ∧ t.out.evReady = true) ∧
    (BlockInv initOpening ∧ ∃ t, tick faultAll initOpening = .next t ∧ t.out.evInitError = true) ∧
    answerAll.rst = false ∧ quiet.rst = false ∧ faultAll.rst = false :=
  ⟨⟨closingIssued_inv, _, rfl, rfl⟩, ⟨initLast_inv, _, rfl, rfl⟩, ⟨initOpening_inv, _, rfl, rfl⟩, rfl, rfl, rfl⟩

/-- A tick in which the mode changes, so that its status is the start's. -/
theorem witness_StatusOutputs :
    answerAll.rst = false ∧ ∃ t, tick answerAll closingIssued = .next t ∧ t.out.ready = true ∧ t.mode = .closed :=
  ⟨rfl, _, rfl, rfl, rfl⟩

/-- Each row of R76's table, on the enable channel. -/
theorem witness_CompletionTable :
    (hasBit initOpening.pend .e = true ∧ answerAll.rsp.get .e = some .ok ∧ faultAll.rsp.get .e = some .fault ∧
      initOpening.txn.get .e = .openPin) ∧
    (hasBit nibLast.pend .e = true ∧ nibLast.txn.get .e = .write false) ∧
    (hasBit closingIssued.pend .e = true ∧ closingIssued.txn.get .e = .closePin) :=
  ⟨⟨rfl, rfl, rfl, rfl⟩, ⟨rfl, rfl⟩, rfl, rfl⟩

theorem witness_StrayResponseIgnored :
    answerAll.rst = false ∧ hasBit nibLast.pend .rs = false ∧ answerAll.rsp.get .rs = some .ok := ⟨rfl, rfl, rfl⟩

/-- A tick that issues six closes, and one that issues nothing. -/
theorem witness_PinRequestOutputs :
    quiet.rst = false ∧ (∃ t, tick quiet closingT = .next t ∧ t.out.req.get .e = some .closePin) ∧
    (∃ t, tick quiet closingIssued = .next t ∧ t.out.req.get .e = none) := ⟨rfl, ⟨_, rfl, rfl⟩, _, rfl, rfl⟩

/-- A channel with nothing outstanding, and an outstanding one without an answer. -/
theorem witness_PinRecordChangesOnlyAtCompletion :
    (∃ t, tick answerAll nibLast = .next t ∧ hasBit nibLast.pend .rs = false) ∧
    (∃ t, tick quiet nibLast = .next t ∧ hasBit nibLast.pend .e = true ∧ quiet.rsp.get .e = none) :=
  ⟨⟨_, rfl, rfl⟩, _, rfl, rfl, rfl⟩

/-- E is high and its low write is in flight. -/
theorem witness_WriteInFlightIsRace :
    { nibLast with lvl := nibLast.lvl.set .e .high }.lvl.get .e = (if true then Lvl.high else Lvl.low) ∧
    hasBit nibLast.pend .e = true ∧ nibLast.txn.get .e = .write false := ⟨rfl, rfl, rfl⟩

theorem witness_IssueOnlyWhenAllAnswered :
    quiet.rst = false ∧ ∃ t, tick quiet closingT = .next t ∧ issues closingT.history < issues t.history :=
  ⟨rfl, _, rfl, by decide⟩

/-- In READY and in INIT. -/
theorem witness_UnansweredTransactionStalls :
    (BlockInv nibLast ∧ hasBit nibLast.pend .e = true ∧ nibLast.mode ≠ .init) ∧
    (BlockInv initOpening ∧ hasBit initOpening.pend .e = true) ∧
    NoReset [quiet, presentWord 0x1101#16] ∧ (∀ i ∈ [quiet, presentWord 0x1101#16], i.rsp.get .e = none) := by
  refine ⟨⟨nibLast_inv, rfl, by decide⟩, ⟨initOpening_inv, rfl⟩, ?_, ?_⟩
  · intro i h
    simp only [List.mem_cons, List.not_mem_nil, or_false] at h
    rcases h with rfl | rfl <;> rfl
  · intro i h
    simp only [List.mem_cons, List.not_mem_nil, or_false] at h
    rcases h with rfl | rfl <;> rfl

/-- A wait of 3 run through two ticks, which reaches its last one, and a wait of 1 with none. -/
theorem witness_WaitTakesExactlyItsCount :
    (nibWaiting.pk ≠ .none ∧ nibWaiting.pend = 0#6 ∧ NoReset ([] : List TickIn) ∧ ([] : List TickIn).length < nibWaiting.wait) ∧
    (NoReset [quiet, answerAll] ∧ [quiet, answerAll].length < { nibWaiting with wait := 3 }.wait) ∧ quiet.rst = false ∧
    quiet.rq = none := by
  refine ⟨⟨by decide, rfl, noReset_replicate 0 (i := quiet) rfl, by decide⟩, ⟨?_, by decide⟩, rfl, rfl⟩
  intro i h
  simp only [List.mem_cons, List.not_mem_nil, or_false] at h
  rcases h with rfl | rfl <;> rfl

/-- A tick that starts an item, and a tick that loads. -/
theorem witness_UpcAndIStateWrites :
    quiet.rst = false ∧ (∃ t, tick quiet closingT = .next t ∧ t.upc = closingT.upc + 1#7) ∧
    (presentWord 0x1101#16).rst = false ∧ (∃ t, tick (presentWord 0x1101#16) readyT = .next t ∧ t.upc = 0#7) :=
  ⟨rfl, ⟨_, rfl, rfl⟩, rfl, _, rfl, rfl⟩

/-- Each way a program ends: NIB after its last item, CLOSE after its group, INIT after its last wait, INIT on a fault. -/
theorem witness_FinishByProgram :
    (BlockInv nibLast ∧ nibLast.pk = .nib ∧ (phase1 answerAll.rsp (beginTick nibLast)).pend = 0#6 ∧
      (phase1 answerAll.rsp (beginTick nibLast)).wait ≤ 1 ∧
      (phase1 answerAll.rsp (beginTick nibLast)).upc.toNat = (prog (phase1 answerAll.rsp (beginTick nibLast))).length) ∧
    (BlockInv closingIssued ∧ closingIssued.pk = .close ∧ (phase1 faultAll.rsp (beginTick closingIssued)).pend = 0#6 ∧
      (phase1 faultAll.rsp (beginTick closingIssued)).wait ≤ 1 ∧
      (phase1 faultAll.rsp (beginTick closingIssued)).fault = true) ∧
    (BlockInv initLast ∧ initLast.pk = .init ∧ (phase1 quiet.rsp (beginTick initLast)).pend = 0#6 ∧
      (phase1 quiet.rsp (beginTick initLast)).wait ≤ 1 ∧ (phase1 quiet.rsp (beginTick initLast)).fault = false ∧
      (phase1 quiet.rsp (beginTick initLast)).upc.toNat = (prog (phase1 quiet.rsp (beginTick initLast))).length) ∧
    (BlockInv initOpening ∧ initOpening.pk = .init ∧ (phase1 faultAll.rsp (beginTick initOpening)).pend = 0#6 ∧
      (phase1 faultAll.rsp (beginTick initOpening)).wait ≤ 1 ∧ (phase1 faultAll.rsp (beginTick initOpening)).fault = true) :=
  ⟨⟨nibLast_inv, rfl, by decide, by decide, by decide⟩, ⟨closingIssued_inv, rfl, by decide, by decide, by decide⟩,
    ⟨initLast_inv, rfl, by decide, by decide, by decide, by decide⟩, initOpening_inv, rfl, by decide, by decide, by decide⟩

/-- A run to OK and a run to PinFault. -/
theorem witness_NibSendsOneNibble :
    (BlockInv readyT ∧ HistoryAgrees readyT ∧ readyT.mode = .ready ∧ readyT.pk = .none ∧ (0x05#8).toNat < 16 ∧
      exec (.nib 0x05#8 false) readyT = .next (after (exec (.nib 0x05#8 false) readyT))) ∧
    (NoReset (List.replicate 5 answerAll) ∧
      (runToIdle (List.replicate 5 answerAll) (after (exec (.nib 0x05#8 false) readyT))).isSome = true) ∧
    NoReset (List.replicate 2 faultAll) ∧
      (runToIdle (List.replicate 2 faultAll) (after (exec (.nib 0x05#8 false) readyT))).isSome = true :=
  ⟨⟨readyT_inv, readyT_agrees, rfl, rfl, by decide, rfl⟩, ⟨noReset_replicate 5 rfl, by decide +kernel⟩,
    noReset_replicate 2 rfl, by decide⟩

theorem witness_FrameSendsHighThenLowNibble :
    (BlockInv readyT ∧ HistoryAgrees readyT ∧ readyT.mode = .ready ∧ readyT.pk = .none ∧
      exec (if true then .data 0x41#8 false else .cmd 0x41#8 false) readyT =
        .next (after (exec (.data 0x41#8 false) readyT))) ∧
    (NoReset (List.replicate 10 answerAll) ∧
      (runToIdle (List.replicate 10 answerAll) (after (exec (.data 0x41#8 false) readyT))).isSome = true) ∧
    NoReset (List.replicate 2 faultAll) ∧
      (runToIdle (List.replicate 2 faultAll) (after (exec (.data 0x41#8 false) readyT))).isSome = true :=
  ⟨⟨readyT_inv, readyT_agrees, rfl, rfl, rfl⟩, ⟨noReset_replicate 10 rfl, by decide +kernel⟩, noReset_replicate 2 rfl, by decide⟩

theorem witness_CloseReleasesOpenChannels :
    (BlockInv readyT ∧ readyT.mode = .ready ∧ readyT.pk = .none ∧ exec .close readyT = .next closingT ∧
      NoReset (List.replicate 2 answerAll) ∧ (runToIdle (List.replicate 2 answerAll) closingT).isSome = true) ∧
    (BlockInv failedT ∧ failedT.mode = .failed ∧ failedT.pk = .none ∧
      exec .close failedT = .next (after (exec .close failedT)) ∧ NoReset (List.replicate 2 faultAll) ∧
      (runToIdle (List.replicate 2 faultAll) (after (exec .close failedT))).isSome = true) :=
  ⟨⟨readyT_inv, rfl, rfl, rfl, noReset_replicate 2 rfl, by decide⟩,
    failedT_inv, rfl, rfl, rfl, noReset_replicate 2 rfl, by decide⟩

/-- A run that fails at the opens, and one to Ready, at tick 80 with every latency 1 (R252, S_READY). -/
theorem witness_InitRunsHandshake :
    (BlockInv resetT ∧ HistoryAgrees resetT ∧ resetT.mode = .init ∧ resetT.upc = 0#7) ∧
    (NoReset (List.replicate 2 faultAll) ∧
      (runToIdle (List.replicate 2 faultAll) resetT).map State.mode = some .failed) ∧
    NoReset (List.replicate 80 answerAll) ∧
    (runToIdle (List.replicate 80 answerAll) resetT).map State.mode = some .ready :=
  ⟨⟨resetT_inv, resetT_agrees, rfl, rfl⟩, ⟨noReset_replicate 2 rfl, by decide⟩, noReset_replicate 80 rfl, by decide +kernel⟩

/-- CLOSE with one group of latency 1, and CMD with seven of latency 2. -/
theorem witness_ResponseTiming :
    (BlockInv readyT ∧ readyT.pk = .none ∧ exec .close readyT = .next closingT ∧ closingT.pk ≠ .none ∧
      [1].length = groupCount (prog closingT) ∧ ∀ l ∈ [1], 1 ≤ l) ∧
    (exec (.cmd 0x01#8 true) readyT = .next (after (exec (.cmd 0x01#8 true) readyT)) ∧
      (after (exec (.cmd 0x01#8 true) readyT)).pk ≠ .none ∧
      (List.replicate 7 2).length = groupCount (prog (after (exec (.cmd 0x01#8 true) readyT))) ∧
      ∀ l ∈ List.replicate 7 2, 1 ≤ l) :=
  ⟨⟨readyT_inv, rfl, rfl, by decide, by decide, by decide⟩, rfl, by decide, by decide, by decide⟩

theorem witness_InitTiming :
    BlockInv resetT ∧ resetT.mode = .init ∧ resetT.upc = 0#7 ∧ (List.replicate 49 1).length = 49 ∧
    ∀ l ∈ List.replicate 49 1, 1 ≤ l :=
  ⟨resetT_inv, rfl, rfl, by decide, fun l h => by rw [List.eq_of_mem_replicate h]⟩

theorem witness_CloseProgramItems : (0b000010#6 : ChanSet) ≠ 0#6 ∧ (0b111111#6 : ChanSet) ≠ 0#6 := by decide

/-- A strobe hold and a long wait of INIT, and its first group. -/
theorem witness_InitProgramItems :
    (initProg Config.pT 0#2 false)[5]? = some (.wait 1) ∧ 5 ∉ [2, 7, 12, 17, 67] ∧
    (initProg Config.pT 0#2 false)[67]? = some (.wait 4) ∧
    (initProg Config.pT 0#2 false)[0]? = some (.group (Pins.const (some .openPin))) := by decide

theorem witness_FunctionSetBytes : (1#2 : BitVec 2) ≠ 0#2 ∧ (3#2 : BitVec 2) ≠ 0#2 := by decide

/-- A reset tick and another one. -/
theorem witness_ConfigurationSampledAtReset :
    (∃ t, step (withReset readyT) = .next t ∧ (nextInput (withReset readyT)).rst = true) ∧
    (∃ t, step (withWord 0x1101#16 readyT) = .next t ∧ (nextInput (withWord 0x1101#16 readyT)).rst = false) :=
  ⟨⟨_, rfl, rfl⟩, _, rfl, rfl⟩

/-- A state outside INIT, INIT below and above the function-set frame, the items on both sides of it, and two configurations
with one byte. -/
theorem witness_ConfigurationReadOnlyByFunctionSet :
    readyT.pk ≠ .init ∧ (initOpening.pk = .init ∧ initOpening.upc.toNat < 22) ∧
    (initLast.pk = .init ∧ 30 < initLast.upc.toNat) ∧ quiet.rst = false ∧ (21 < 22 ∨ 30 < 21) ∧ (31 < 22 ∨ 30 < 31) ∧
    functionSet 1#2 true = functionSet 3#2 false := by decide

theorem witness_ResetTickLeavesResetValues : resetIn.rst = true := rfl

/-- Each mode change of R275: reset, Ready, InitError, CLOSE. -/
theorem witness_ModeTransitions :
    (BlockInv (withReset readyT) ∧ ∃ t, step (withReset readyT) = .next t ∧ t.mode = .init) ∧
    (∃ t, step { initLast with inputs := [quiet] } = .next t ∧ t.mode = .ready) ∧
    (∃ t, step { initOpening with inputs := [faultAll] } = .next t ∧ t.mode = .failed) ∧
    (∃ t, step { closingIssued with inputs := [answerAll] } = .next t ∧ t.mode = .closed) :=
  ⟨⟨idle_inv (by decide) (by decide) rfl rfl rfl (fun _ => ⟨rfl, rfl⟩) (fun h => by cases h), _, rfl, rfl⟩,
    ⟨_, rfl, rfl⟩, ⟨_, rfl, rfl⟩, _, rfl, rfl⟩

theorem witness_StepKeepsInvariant : BlockInv (withWord 0x1101#16 readyT) ∧ ∃ t, step (withWord 0x1101#16 readyT) = .next t :=
  ⟨idle_inv (by decide) (by decide) rfl rfl rfl (fun _ => ⟨rfl, rfl⟩) (fun h => by cases h), _, rfl⟩

theorem witness_InvariantStateSteps : BlockInv closingIssued := closingIssued_inv

theorem witness_StepKeepsHistoryAgreement :
    HistoryAgrees (withWord 0x1101#16 readyT) ∧ ∃ t, step (withWord 0x1101#16 readyT) = .next t :=
  ⟨⟨by decide, by decide, by decide, by decide⟩, _, rfl⟩

/-- `a` at 0x7F, 0x80, 0xFF and 0x100, in row 1, whose offset is 0x40 (V70 to V79). -/
theorem witness_SetCursorBytes :
    let c : HostCfg := { rowsM1 := 1#2 }
    let off := (c.table.offsets[(max 0 (min 1 (c.rows - 1 : Int))).toNat]?).getD 0
    0x7F = 0x3F + off ∧ 0x80 = 0x40 + off ∧ 0xFF = 0xBF + off ∧ 0x100 = 0xC0 + off := by decide

/-- A host and block that agree on the row count, in a tick that is no reset tick, and a reset tick from a pair that does
not agree. -/
theorem witness_HostRowsAgree :
    (∃ z, systemTick quiet { driver := Driver.start {}, block := readyT } = .next z) ∧
    ({ driver := Driver.start {}, block := readyT } : System).rowsAgree ∧
    (∃ z, systemTick resetIn { driver := Driver.start { rowsM1 := 2#2 }, block := readyT } = .next z) ∧
    resetIn.rst = true := ⟨⟨_, rfl⟩, rfl, ⟨_, rfl⟩, rfl⟩

/-- Texts of 159 and 160 bytes, and one with a code point above 255 after a byte. -/
theorem witness_PrintSendsFromStartIndex :
    (∀ ch ∈ (List.replicate 160 0xFF).drop 80, ch ≤ 0xFF) ∧ (List.replicate 159 0xFF).length < 160 ∧
    (List.replicate 160 0xFF).length = 160 ∧
    ([0x41, 0x100, 0x42] : List Nat) = [0x41] ++ 0x100 :: [0x42] ∧ (∀ ch ∈ [0x41], ch ≤ 0xFF) ∧ 0xFF < 0x100 :=
  ⟨fun ch h => by rw [List.eq_of_mem_replicate (List.mem_of_mem_drop h)], by rw [List.length_replicate]; decide,
    List.length_replicate .., rfl, by decide, by decide⟩

/-- A toggle of each register. -/
theorem witness_DisplayToggleLaws :
    (HostOp.noBlink = .noBlink ∧ HostRegs.initial = { HostRegs.initial with blinkOn := false }) ∧
    HostOp.noAutoscroll = .noAutoscroll ∧ HostRegs.initial = { HostRegs.initial with autoscrollOn := false } := by decide

/-- A reset tick, a tick that takes an operation off the queue, two whose operation presents nothing (an empty PRINT, and
SETCUR above 0xFF), one in INIT, and one with an operation in progress. -/
theorem witness_DriverQueueIsFifo :
    let d : Driver := { Driver.start {} with queue := [.clear, .home] }
    let p : Driver := { Driver.start {} with queue := [.print []] }
    let e : Driver := { Driver.start {} with queue := [.setCur 0x100 0] }
    let f : Driver := { d with cur := some { op := .home, rest := [.cmd 0x02#8 true], thenInvalid := false, awaiting := true } }
    (∃ z, systemTick resetIn { driver := d, block := readyT } = .next z ∧ resetIn.rst = true) ∧
    (∃ z, systemTick quiet { driver := d, block := readyT } = .next z ∧ quiet.rst = false ∧ d.cur = none ∧
      readyT.mode ≠ .init ∧ d.queue = .clear :: [.home] ∧ (plan d.cfg d.regs .clear).requests ≠ []) ∧
    (∃ z, systemTick quiet { driver := p, block := readyT } = .next z ∧
      plan p.cfg p.regs (.print []) = { requests := [], thenInvalid := false }) ∧
    (∃ z, systemTick quiet { driver := e, block := readyT } = .next z ∧
      plan e.cfg e.regs (.setCur 0x100 0) = { requests := [], thenInvalid := true }) ∧
    (∃ z, systemTick quiet { driver := d, block := resetT } = .next z ∧ resetT.mode = .init) ∧
    (∃ z, systemTick quiet { driver := f, block := readyT } = .next z ∧ f.cur ≠ none) :=
  ⟨⟨_, rfl, rfl⟩, ⟨_, rfl, rfl, rfl, by decide, rfl, by decide⟩, ⟨_, rfl, by decide⟩, ⟨_, rfl, by decide⟩, ⟨_, rfl, rfl⟩,
    _, rfl, by decide⟩

/-- The outputs of a tick for each clause: an acceptance, an OK with a request left, an OK of the last one with and without a
failure at the host, a PinFault. -/
theorem witness_OperationRunsByResponses :
    let r : Running := { op := .home, rest := [.cmd 0x02#8 true], thenInvalid := false, awaiting := true }
    let d : Driver := { Driver.start {} with cur := some r }
    let ok : TickOut := { resetOut with rsp := some .ok }
    (Driver.start {}).cur = none ∧ d.cur = some r ∧ r.rest = .cmd 0x02#8 true :: [] ∧ (resetOut.rsp = none ∧ resetOut.rqReady = false) ∧
    (ok.rsp = some .ok ∧ (r.awaiting || ok.rqReady) = true) ∧ r.thenInvalid = false ∧
    { r with thenInvalid := true }.thenInvalid = true ∧
    { r with rest := [.data 0x41#8 false, .data 0x42#8 false] }.rest = .data 0x41#8 false :: [.data 0x42#8 false] ∧
    { resetOut with rsp := some RspStatus.pinFault }.rsp = some .pinFault ∧ RspStatus.pinFault ≠ .ok := by decide

end Sys2Proof.Tests
end

section
/-! The configuration registers (R39): what each phase of a tick, and a whole step, leaves in them. -/

namespace Sys2Proof.Machine

/-- `t` holds the configuration registers of `s`. -/
def SameConfig (s t : State) : Prop := t.cfgRowsM1Q = s.cfgRowsM1Q ∧ t.cfgLfQ = s.cfgLfQ

theorem SameConfig.refl (s : State) : SameConfig s s := ⟨rfl, rfl⟩

theorem SameConfig.trans {s u t : State} (hu : SameConfig s u) (ht : SameConfig u t) : SameConfig s t :=
  ⟨ht.1.trans hu.1, ht.2.trans hu.2⟩

theorem beginTick_sameConfig (s : State) : SameConfig s (beginTick s) := ⟨rfl, rfl⟩

theorem phase1_sameConfig (rsp : Pins (Option PinStatus)) (s : State) : SameConfig s (phase1 rsp s) :=
  ⟨phase1_cfgRowsM1Q rsp s, phase1_cfgLfQ rsp s⟩

theorem advance_sameConfig {s t : State} (h : advance s = .next t) : SameConfig s t := by
  obtain ⟨-, rfl⟩ | ⟨-, -, rfl⟩ | ⟨-, item, -, rfl⟩ := advance_cases h
  · exact ⟨finish_cfgRowsM1Q true s, finish_cfgLfQ true s⟩
  · exact ⟨finish_cfgRowsM1Q false s, finish_cfgLfQ false s⟩
  · exact ⟨startItem_cfgRowsM1Q item s, startItem_cfgLfQ item s⟩

theorem phase2_sameConfig {s t : State} (h : phase2 s = .next t) : SameConfig s t := by
  obtain ⟨-, rfl⟩ | ⟨-, -, rfl⟩ | ⟨-, -, -, rfl⟩ | ⟨-, -, -, ha⟩ := phase2_cases h
  · exact .refl _
  · exact .refl _
  · exact ⟨rfl, rfl⟩
  · exact advance_sameConfig (s := { s with wait := 0 }) ha

/-- No request writes the configuration registers, whether it is turned away or loaded. -/
theorem phase3_sameConfig {rq : Option Word} {m : Mode} {k : Pk} {s t : State} (h : phase3 rq m k s = .next t) :
    SameConfig s t := by
  obtain ⟨-, rfl⟩ | ⟨w, -, -, ⟨-, -, -, -, -, rfl⟩ | rfl | rfl | ⟨r, kind, -, -, -, -, -, -, rfl⟩ |
    ⟨-, -, -, -, -, rfl⟩⟩ := phase3_cases h
  · exact .refl _
  · exact .refl _
  · exact ⟨raiseError_cfgRowsM1Q .notReady s, raiseError_cfgLfQ .notReady s⟩
  · exact ⟨raiseError_cfgRowsM1Q .invalidValue s, raiseError_cfgLfQ .invalidValue s⟩
  · exact ⟨load_cfgRowsM1Q kind (encode r) s, load_cfgLfQ kind (encode r) s⟩
  · exact ⟨loadClose_cfgRowsM1Q (encode .close) s, loadClose_cfgLfQ (encode .close) s⟩

theorem tick_sameConfig {i : TickIn} {s t : State} (hr : i.rst = false) (h : tick i s = .next t) :
    SameConfig s t := by
  obtain ⟨u, h2, h3⟩ := tick_cases hr h
  have h1 : SameConfig s (phase1 i.rsp (beginTick s)) := (beginTick_sameConfig s).trans (phase1_sameConfig _ _)
  exact (h1.trans (phase2_sameConfig h2)).trans (phase3_sameConfig h3)

/-- A reset tick runs no phase (R141). -/
theorem tick_of_rst {i : TickIn} (s : State) (hr : i.rst = true) : tick i s = .next (resetTick i s) := by
  simp [tick, hr]

theorem dropInput_sameConfig (s : State) : SameConfig s (dropInput s) := by
  unfold dropInput
  split <;> exact ⟨rfl, rfl⟩

/-- Settles O46: a reset tick samples both inputs, and every phase of any other tick leaves the registers as they were. -/
theorem configurationSampledAtReset : Obligations.ConfigurationSampledAtReset := by
  unfold Obligations.ConfigurationSampledAtReset
  intro s t h
  refine ⟨fun hr => ?sampled, fun hr => ?held⟩
  case sampled =>
    rw [step, tick_of_rst _ hr] at h
    cases h
    exact ⟨resetTick_cfgRowsM1Q _ _, resetTick_cfgLfQ _ _⟩
  case held =>
    exact (dropInput_sameConfig s).trans (tick_sameConfig hr h)

end Sys2Proof.Machine
end

section
/-! Stray responses (R74): a response on a channel with nothing outstanding is not seen by phase 1, hence not by the tick. -/

namespace Sys2Proof.Machine

/-- A stray response does not change what is sampled: on its own channel it is ignored, on any other it is not looked at. -/
theorem sample_set_none {s : State} {p : Chan} (h : hasBit s.pend p = false) (rsp : Pins (Option PinStatus)) (q : Chan) :
    sample (rsp.set p none) s q = sample rsp s q := by
  by_cases hq : q = p
  · subst hq
    cases hr : rsp.get q <;> simp [sample, hr, h]
  · simp [sample, hq]

/-- Sampling never makes a channel outstanding. -/
theorem sample_keeps_answered {s : State} {p : Chan} (h : hasBit s.pend p = false) (rsp : Pins (Option PinStatus))
    (q : Chan) : hasBit (sample rsp s q).pend p = false := by
  simp [sample_pend, h]

/-- The channels sampled before `p` leave it with nothing outstanding, so its response is still stray when its turn comes. -/
theorem foldl_sample_set_none (rsp : Pins (Option PinStatus)) (p : Chan) (ps : List Chan) :
    ∀ s : State, hasBit s.pend p = false → ps.foldl (sample (rsp.set p none)) s = ps.foldl (sample rsp) s := by
  induction ps with
  | nil => intro s _; rfl
  | cons q ps ih =>
    intro s h
    rw [List.foldl_cons, List.foldl_cons, sample_set_none h]
    exact ih _ (sample_keeps_answered h rsp q)

theorem phase1_set_none {s : State} {p : Chan} (h : hasBit s.pend p = false) (rsp : Pins (Option PinStatus)) :
    phase1 (rsp.set p none) s = phase1 rsp s :=
  foldl_sample_set_none rsp p Chan.all s h

/-- A tick that is no reset tick runs its three phases in order (R141). -/
theorem tick_of_not_rst {i : TickIn} (s : State) (hr : i.rst = false) :
    tick i s = andThen (phase2 (phase1 i.rsp (beginTick s))) (phase3 i.rq s.mode s.pk) := by
  simp [tick, hr]

/-- Settles O25: only phase 1 reads the responses, and it takes nothing from a stray one. -/
theorem strayResponseIgnored : Obligations.StrayResponseIgnored := by
  unfold Obligations.StrayResponseIgnored
  intro s i p hr h
  have hb : hasBit (beginTick s).pend p = false := by rw [beginTick_pend, h]
  rw [tick_of_not_rst s hr, tick_of_not_rst s (i := { i with rsp := i.rsp.set p none }) hr, phase1_set_none hb]

end Sys2Proof.Machine
end

section
/-! The function-set byte (R243), one lemma per kind of panel: only a one-row panel looks at the font. -/

namespace Sys2Proof.Machine

/-- One row: the row bit is clear, and the font bit follows the large font. -/
theorem functionSet_oneRow (lf : Bool) : functionSet 0#2 lf = if lf = true then 0x24#8 else 0x20#8 := by
  cases lf <;> rfl

/-- More rows: the row bit is set, and the font bit is clear with either font. -/
theorem functionSet_moreRows {rm1 : BitVec 2} (lf : Bool) (h : rm1 ≠ 0#2) : functionSet rm1 lf = 0x28#8 := by
  simp [functionSet, h]

/-- Settles O44: with one row the byte is chosen by the font, with more rows it is fixed. -/
theorem functionSetBytes : Obligations.FunctionSetBytes := by
  unfold Obligations.FunctionSetBytes
  exact ⟨functionSet_oneRow false, functionSet_oneRow true, fun _ lf h => functionSet_moreRows lf h⟩

end Sys2Proof.Machine
end

section
/-! The mode transitions (R275): only a finish in phase 2 changes the mode (R146), and what phases 1 and 3 add to its tick
leaves the mode, the ended program and the finish's event as they were. -/

namespace Sys2Proof.Machine

theorem Appends.refl (s : State) : Appends s s [] := by simp [Appends]

theorem Appends.trans {s u t : State} {evs evs' : List Event} (hu : Appends s u evs) (ht : Appends u t evs') :
    Appends s t (evs ++ evs') := by
  unfold Appends at *
  rw [ht, hu, List.append_assoc]

@[simp] theorem dropInput_mode (s : State) : (dropInput s).mode = s.mode := by
  unfold dropInput; split <;> rfl

@[simp] theorem dropInput_pk (s : State) : (dropInput s).pk = s.pk := by
  unfold dropInput; split <;> rfl

@[simp] theorem dropInput_history (s : State) : (dropInput s).history = s.history := by
  unfold dropInput; split <;> rfl

/-! ### The modes a program runs in (R303) -/

theorem legalPair_pk_init {m : Mode} (h : legalPair m .init = true) : m = .init := by
  cases m <;> simp [legalPair] at h ⊢

theorem legalPair_pk_close {m : Mode} (h : legalPair m .close = true) : m = .ready ∨ m = .failed := by
  cases m <;> simp [legalPair] at h ⊢

theorem legalPair_mode_init {k : Pk} (h : legalPair .init k = true) : k ≠ .none := by
  rintro rfl; simp [legalPair] at h

/-! ### The listed transitions -/

/-- R275's list: from mode `m` with program `k` running, the mode of `t` is the same, or was changed by the finish whose
event is among `evs`. -/
def ListedTransition (m : Mode) (k : Pk) (t : State) (evs : List Event) : Prop :=
  t.mode = m ∨
  (m = .init ∧ t.mode = .ready ∧ t.pk = .none ∧ Event.ready t.now ∈ evs) ∨
  (m = .init ∧ t.mode = .failed ∧ t.pk = .none ∧ Event.initError t.now .pinFault ∈ evs) ∨
  ((m = .ready ∨ m = .failed) ∧ k = .close ∧ t.mode = .closed ∧ t.pk = .none ∧
    (Event.response t.now .ok ∈ evs ∨ Event.response t.now .pinFault ∈ evs))

/-- More events do not hide a transition. -/
theorem ListedTransition.mono {m : Mode} {k : Pk} {t : State} {evs evs' : List Event}
    (h : ListedTransition m k t evs) (hs : evs ⊆ evs') : ListedTransition m k t evs' := by
  obtain hm | ⟨hm, ht, hk, he⟩ | ⟨hm, ht, hk, he⟩ | ⟨hm, hc, ht, hk, he⟩ := h
  · exact .inl hm
  · exact .inr (.inl ⟨hm, ht, hk, hs he⟩)
  · exact .inr (.inr (.inl ⟨hm, ht, hk, hs he⟩))
  · exact .inr (.inr (.inr ⟨hm, hc, ht, hk, he.imp (hs ·) (hs ·)⟩))

/-- A transition is still there in a later state of the tick, when no program was loaded over the ended one. -/
theorem ListedTransition.later {m : Mode} {k : Pk} {u t : State} {evs : List Event} (hl : legalPair m k = true)
    (h : ListedTransition m k u evs) (hmode : t.mode = u.mode) (hnow : t.now = u.now)
    (hpk : k ≠ .none → t.pk = u.pk) : ListedTransition m k t evs := by
  unfold ListedTransition
  rw [hmode, hnow]
  obtain hm | ⟨rfl, hu, hk, he⟩ | ⟨rfl, hu, hk, he⟩ | ⟨hm, rfl, hu, hk, he⟩ := h
  · exact .inl hm
  · exact .inr (.inl ⟨rfl, hu, (hpk (legalPair_mode_init hl)).trans hk, he⟩)
  · exact .inr (.inr (.inl ⟨rfl, hu, (hpk (legalPair_mode_init hl)).trans hk, he⟩))
  · exact .inr (.inr (.inr ⟨hm, rfl, hu, (hpk (by decide)).trans hk, he⟩))

/-! ### The phases -/

/-- Only the finish of INIT and of CLOSE changes the mode, each with its own event (R146). -/
theorem finish_listed (f : Bool) {s : State} (hl : legalPair s.mode s.pk = true) :
    ∃ evs, Appends s (finish f s) evs ∧ ListedTransition s.mode s.pk (finish f s) evs := by
  refine ⟨_, finish_history f s, ?_⟩
  unfold ListedTransition
  rw [finish_mode, finish_pk, finish_now]
  cases hk : s.pk with
  | none => exact .inl rfl
  | nib => exact .inl rfl
  | frame => exact .inl rfl
  | init =>
    rw [hk] at hl
    cases f with
    | false => exact .inr (.inl ⟨legalPair_pk_init hl, rfl, rfl, by simp⟩)
    | true => exact .inr (.inr (.inl ⟨legalPair_pk_init hl, rfl, rfl, by simp⟩))
  | close =>
    rw [hk] at hl
    refine .inr (.inr (.inr ⟨legalPair_pk_close hl, rfl, rfl, rfl, ?_⟩))
    cases f <;> simp

theorem advance_listed {s t : State} (hl : legalPair s.mode s.pk = true) (h : advance s = .next t) :
    ∃ evs, Appends s t evs ∧ ListedTransition s.mode s.pk t evs := by
  obtain ⟨-, rfl⟩ | ⟨-, -, rfl⟩ | ⟨-, item, -, rfl⟩ := advance_cases h
  · exact finish_listed true hl
  · exact finish_listed false hl
  · exact ⟨_, startItem_history item s, .inl (startItem_mode item s)⟩

theorem phase2_listed {s t : State} (hl : legalPair s.mode s.pk = true) (h : phase2 s = .next t) :
    ∃ evs, Appends s t evs ∧ ListedTransition s.mode s.pk t evs := by
  obtain ⟨-, rfl⟩ | ⟨-, -, rfl⟩ | ⟨-, -, -, rfl⟩ | ⟨-, -, -, ha⟩ := phase2_cases h
  · exact ⟨[], .refl _, .inl rfl⟩
  · exact ⟨[], .refl _, .inl rfl⟩
  · exact ⟨[], .refl s, .inl rfl⟩
  · exact advance_listed (s := { s with wait := 0 }) hl ha

/-- No request changes the mode or the tick's number, whether it is turned away or loaded; at most it is answered. -/
theorem phase3_frame {rq : Option Word} {m : Mode} {k : Pk} {s t : State} (h : phase3 rq m k s = .next t) :
    t.mode = s.mode ∧ t.now = s.now ∧ ∃ evs, Appends s t evs := by
  obtain ⟨-, rfl⟩ | ⟨w, -, -, ⟨-, -, -, -, -, rfl⟩ | rfl | rfl | ⟨r, kind, -, -, -, -, -, -, rfl⟩ |
    ⟨-, -, -, -, -, rfl⟩⟩ := phase3_cases h
  · exact ⟨rfl, rfl, [], .refl _⟩
  · exact ⟨rfl, rfl, [], .refl _⟩
  · exact ⟨rfl, rfl, _, raiseError_history .notReady s⟩
  · exact ⟨rfl, rfl, _, raiseError_history .invalidValue s⟩
  · exact ⟨rfl, rfl, [], .refl s⟩
  · exact ⟨rfl, rfl, [], .refl s⟩

/-- A tick that begins with a program running loads none: outside INIT its word is not taken (R147), and in INIT a word is
turned away (R297). -/
theorem phase3_pk_of_running {rq : Option Word} {m : Mode} {k : Pk} {s t : State} (hk : k ≠ .none)
    (h : phase3 rq m k s = .next t) : t.pk = s.pk := by
  have no_load : rqReady m k = true → m = .init := by simp [rqReady, hk]
  obtain ⟨-, rfl⟩ | ⟨w, -, hq, ⟨-, -, -, -, -, rfl⟩ | rfl | rfl | ⟨r, kind, -, hm, -⟩ | ⟨-, hm, -⟩⟩ := phase3_cases h
  · rfl
  · rfl
  · rfl
  · rfl
  · exact absurd (no_load hq) hm
  · exact absurd (no_load hq) hm

/-- In a tick that is no reset tick the mode changes only as listed. -/
theorem tick_listed {i : TickIn} {s t : State} (hl : legalPair s.mode s.pk = true) (hr : i.rst = false)
    (h : tick i s = .next t) : ∃ evs, Appends s t evs ∧ ListedTransition s.mode s.pk t evs := by
  obtain ⟨u, h2, h3⟩ := tick_cases hr h
  have a1 : Appends s (phase1 i.rsp (beginTick s)) (completions i.rsp (beginTick s)) :=
    phase1_history i.rsp (beginTick s)
  obtain ⟨evs2, a2, l2⟩ := phase2_listed (by simpa using hl) h2
  obtain ⟨hmode, hnow, evs3, a3⟩ := phase3_frame h3
  rw [phase1_mode, phase1_pk, beginTick_mode, beginTick_pk] at l2
  have l3 : ListedTransition s.mode s.pk t evs2 :=
    l2.later hl hmode hnow fun hk => phase3_pk_of_running hk h3
  exact ⟨_, (a1.trans a2).trans a3, l3.mono (by simp)⟩

/-- Settles O49: a reset tick leads to INIT, and in any other tick only phase 2's finish changes the mode. -/
theorem modeTransitions : Obligations.ModeTransitions := by
  unfold Obligations.ModeTransitions
  intro s t hi h
  cases hr : (nextInput s).rst with
  | true =>
    rw [step, tick_of_rst _ hr] at h
    cases h
    exact .inl ⟨rfl, resetTick_mode _ _⟩
  | false =>
    obtain ⟨evs, happ, hlist⟩ := tick_listed (by simpa using hi.modePk) hr h
    rw [Appends, dropInput_history] at happ
    rw [dropInput_mode, dropInput_pk] at hlist
    exact .inr ⟨rfl, evs, happ, hlist⟩

end Sys2Proof.Machine
end

section
/-! The rejections of the host port (R291, R294, R297): a word that is turned away leaves the tick as it is without the
word, and adds its Response. -/

namespace Sys2Proof.Machine

/-! ### Phase 2 always answers -/

/-- Within the program's range `upc` names an item, or it is at the end (R33). -/
theorem advance_answers {s : State} (h : s.upc.toNat ≤ (prog s).length) : ∃ t, advance s = .next t := by
  unfold advance
  split
  · exact ⟨_, rfl⟩
  · split
    · exact ⟨_, rfl⟩
    · rename_i hend
      have hlt : s.upc.toNat < (prog s).length := by omega
      rw [List.getElem?_eq_getElem hlt]
      exact ⟨_, rfl⟩

theorem phase2_answers {s : State} (h : s.pk ≠ .none → s.upc.toNat ≤ (prog s).length) : ∃ t, phase2 s = .next t := by
  unfold phase2
  split
  · exact ⟨_, rfl⟩
  · rename_i hk
    split
    · exact ⟨_, rfl⟩
    · split
      · exact ⟨_, rfl⟩
      · exact advance_answers (s := { s with wait := s.wait - 1 }) (h hk)

/-- The phases before the host port answer a state from every state of the invariant. -/
theorem BlockInv.phases_answer {s : State} (hi : BlockInv s) (rsp : Pins (Option PinStatus)) :
    ∃ u, phase2 (phase1 rsp (beginTick s)) = .next u :=
  phase2_answers (by simpa using hi.upcRange)

/-! ### Which words phase 3 turns away -/

theorem rqReady_of_idle (m : Mode) : rqReady m .none = true := by simp [rqReady]

/-- R147: INIT and CLOSED always take a word, INIT though its program runs and CLOSED since none runs there (R303). -/
theorem rqReady_of_init_or_closed {m : Mode} {k : Pk} (hl : legalPair m k = true) (hm : m = .init ∨ m = .closed) :
    rqReady m k = true := by
  obtain rfl | rfl := hm
  · simp [rqReady]
  · obtain rfl : k = .none := by simpa [legalPair] using hl
    exact rqReady_of_idle .closed

/-- R297: a word taken in INIT or CLOSED is answered before it is decoded. -/
theorem phase3_init_or_closed {m : Mode} {k : Pk} (w : Word) (s : State) (hq : rqReady m k = true)
    (hm : m = .init ∨ m = .closed) : phase3 (some w) m k s = .next (raiseError .notReady s) := by
  simp [phase3, hq, hm]

/-- R291: in READY and FAILED an INVALID word that is taken is answered as such. -/
theorem phase3_invalid {m : Mode} {k : Pk} {w : Word} {r : DecodeReject} (s : State) (hq : rqReady m k = true)
    (hm : m = .ready ∨ m = .failed) (hd : decode w = .error r) :
    phase3 (some w) m k s = .next (raiseError .invalidValue s) := by
  obtain rfl | rfl := hm <;> simp [phase3, hq, hd]

/-- R148: in READY and FAILED a word that is taken and decodes has its meaning in `exec`. -/
theorem phase3_decoded {m : Mode} {k : Pk} {w : Word} {r : Instr} (s : State) (hq : rqReady m k = true)
    (hm : m = .ready ∨ m = .failed) (hd : decode w = .ok r) : phase3 (some w) m k s = exec r s := by
  obtain rfl | rfl := hm <;> simp [phase3, hq, hd]

/-- The request of a word that decodes is well formed: NIB's value comes from four bits (R106). -/
theorem wellFormed_of_decode {w : Word} {r : Instr} (h : decode w = .ok r) : r.wellFormed = true := by
  unfold decode at h
  split at h
  · cases h; rfl
  · split at h
    · cases h; rfl
    · split at h
      · cases h
        have hv : (wordNibble w).toNat < 16 := (wordNibble w).isLt
        simp only [Instr.wellFormed, BitVec.toNat_setWidth, decide_eq_true_eq]
        omega
      · split at h
        · cases h; rfl
        · cases h

/-- What READY alone admits is answered NotReady in an idle FAILED block (R294). -/
theorem request_readyOnly_failed {legal : Bool} (loaded : State → State) {s : State} (hm : s.mode = .failed)
    (hk : s.pk = .none) (hl : legal = true) : request legal readyOnly loaded s = raiseError .notReady s := by
  simp [request, readyOnly, hm, hk, hl]

/-- R294, R303: an idle FAILED block admits CLOSE alone. -/
theorem exec_failed_of_ne_close {r : Instr} {s : State} (hm : s.mode = .failed) (hk : s.pk = .none)
    (hwf : r.wellFormed = true) (hc : r ≠ .close) : exec r s = .next (raiseError .notReady s) := by
  cases r with
  | cmd b st => exact congrArg _ (request_readyOnly_failed _ hm hk rfl)
  | data b st => exact congrArg _ (request_readyOnly_failed _ hm hk rfl)
  | nib v st => exact congrArg _ (request_readyOnly_failed _ hm hk hwf)
  | close => exact absurd rfl hc

/-! ### The tick of a word that is turned away -/

/-- Raising an error adds the Response and nothing else (R291, R300). -/
theorem raiseError_rejectedWith (k : RspStatus) (s : State) : RejectedWith k s (raiseError k s) := rfl

/-- The word is read in phase 3 alone, so when phase 3 raises an error on the state `u` that phase 2 leaves, the tick
without the word ends in `u` itself. -/
theorem tickRejects_of_phase3 {k : RspStatus} {i : TickIn} {s u : State} (hr : i.rst = false)
    (h2 : phase2 (phase1 i.rsp (beginTick s)) = .next u)
    (h3 : phase3 i.rq s.mode s.pk u = .next (raiseError k u)) : TickRejects k i s := by
  refine ⟨u, raiseError k u, ?without, ?withWord, raiseError_rejectedWith k u⟩
  case without =>
    rw [tick_of_not_rst s (i := { i with rq := none }) hr, h2]
    rfl
  case withWord =>
    rw [tick_of_not_rst s hr, h2]
    exact h3

/-- An idle block reaches phase 3 with nothing done, so only phase 3 has to be looked at. -/
theorem tickRejects_of_idle {k : RspStatus} {i : TickIn} {s : State} (hi : BlockInv s) (hr : i.rst = false)
    (hk : s.pk = .none)
    (h3 : phase3 i.rq s.mode s.pk (beginTick s) = .next (raiseError k (beginTick s))) : TickRejects k i s :=
  tickRejects_of_phase3 hr (idle_phases hk (hi.idle hk).1) h3

/-- Settles O14: phase 2 goes on as without the word, and phase 3 answers by the mode at the start of the tick. -/
theorem notReadyInInitAndClosed : Obligations.NotReadyInInitAndClosed := by
  unfold Obligations.NotReadyInInitAndClosed
  intro s i w hi hr hw hm
  obtain ⟨u, h2⟩ := hi.phases_answer i.rsp
  refine tickRejects_of_phase3 hr h2 ?_
  rw [hw]
  exact phase3_init_or_closed w u (rqReady_of_init_or_closed hi.modePk hm) hm

/-- Settles O15: the word decodes to a well-formed request other than CLOSE, and FAILED runs only CLOSE. -/
theorem notReadyInFailed : Obligations.NotReadyInFailed := by
  unfold Obligations.NotReadyInFailed
  intro s i w r hi hr hw hm hk hd hc
  refine tickRejects_of_idle hi hr hk ?_
  rw [hw, hk, phase3_decoded _ (rqReady_of_idle _) (.inr hm) hd]
  exact exec_failed_of_ne_close hm hk (wellFormed_of_decode hd) hc

/-- Settles O16: the idle block takes the word, and it has no meaning in `exec`. -/
theorem invalidValueForInvalidWord : Obligations.InvalidValueForInvalidWord := by
  unfold Obligations.InvalidValueForInvalidWord
  intro s i w r hi hr hw hm hk hd
  refine tickRejects_of_idle hi hr hk ?_
  rw [hw, hk]
  exact phase3_invalid _ (rqReady_of_idle _) hm hd

end Sys2Proof.Machine
end

section
/-! The encoding (spec/30_encoding.md): the fields of a request word as numbers, the decoder row by row, and the decoder
against the encoder. -/

namespace Sys2Proof.Machine

/-! ### The fields and masks of a word as numbers (R100) -/

theorem toNat_wordOp (w : Word) : (wordOp w).toNat = w.toNat / 4096 := by
  have := w.isLt
  simp only [wordOp, BitVec.extractLsb'_toNat, Nat.shiftRight_eq_div_pow]
  omega

theorem toNat_wordRsv (w : Word) : (wordRsv w).toNat = w.toNat / 1024 % 4 := by
  simp [wordRsv, BitVec.extractLsb'_toNat, Nat.shiftRight_eq_div_pow]

theorem wordRs_eq_true_iff (w : Word) : wordRs w = true ↔ w.toNat / 512 % 2 = 1 := by
  simp [wordRs, BitVec.getLsbD, Nat.testBit_eq_decide_div_mod_eq]

theorem toNat_highPayload (w : Word) : (w.extractLsb' 4 4).toNat = w.toNat / 16 % 16 := by
  simp [BitVec.extractLsb'_toNat, Nat.shiftRight_eq_div_pow]

/-- The mask of CMD and DATA keeps bits 15 to 9. -/
theorem toNat_and_sendMask (w : Word) : (w &&& 0xFE00#16).toNat = w.toNat / 512 * 512 := by
  have e : w &&& 0xFE00#16 = (w.extractLsb' 9 7).setWidth 16 <<< 9 := by
    ext i hi
    interval_cases i <;> simp
  have := w.isLt
  rw [e]
  simp only [BitVec.toNat_shiftLeft, BitVec.toNat_setWidth, BitVec.extractLsb'_toNat, Nat.shiftRight_eq_div_pow,
    Nat.shiftLeft_eq]
  omega

/-- The mask of NIB keeps bits 15 to 9 and the high payload nibble. -/
theorem and_nibMask_iff (w : Word) :
    w &&& 0xFEF0#16 = 0x2000#16 ↔ w &&& 0xFE00#16 = 0x2000#16 ∧ w.extractLsb' 4 4 = 0#4 := by
  have payload : w &&& 0x00F0#16 = (w.extractLsb' 4 4).setWidth 16 <<< 4 := by
    ext i hi
    interval_cases i <;> simp
  constructor
  · intro h
    have high : w &&& 0xFE00#16 = (w &&& 0xFEF0#16) &&& 0xFE00#16 := by rw [BitVec.and_assoc]; rfl
    refine ⟨by rw [high, h]; rfl, ?_⟩
    have low : w.extractLsb' 4 4 = (w &&& 0xFEF0#16).extractLsb' 4 4 := by
      ext i hi
      interval_cases i <;> simp
    rw [low, h]; rfl
  · rintro ⟨hi, lo⟩
    have split : w &&& 0xFEF0#16 = (w &&& 0xFE00#16) ||| (w &&& 0x00F0#16) := by
      rw [← BitVec.and_or_distrib_left]; rfl
    rw [split, hi, payload, lo]; rfl

/-! ### The rows as ranges (R104 to R107) -/

theorem cmdRow_iff (w : Word) : w &&& 0xFE00#16 = 0x1000#16 ↔ 0x1000 ≤ w.toNat ∧ w.toNat ≤ 0x11FF := by
  rw [← BitVec.toNat_inj, toNat_and_sendMask, BitVec.toNat_ofNat]
  omega

theorem dataRow_iff (w : Word) : w &&& 0xFE00#16 = 0x1200#16 ↔ 0x1200 ≤ w.toNat ∧ w.toNat ≤ 0x13FF := by
  rw [← BitVec.toNat_inj, toNat_and_sendMask, BitVec.toNat_ofNat]
  omega

theorem nibRow_iff (w : Word) : w &&& 0xFEF0#16 = 0x2000#16 ↔
    (0x2000 ≤ w.toNat ∧ w.toNat ≤ 0x200F) ∨ (0x2100 ≤ w.toNat ∧ w.toNat ≤ 0x210F) := by
  rw [and_nibMask_iff, ← BitVec.toNat_inj, ← BitVec.toNat_inj, toNat_and_sendMask, toNat_highPayload, BitVec.toNat_ofNat,
    BitVec.toNat_ofNat]
  omega

theorem closeRow_iff (w : Word) : w = 0x3000#16 ↔ w.toNat = 0x3000 := by
  rw [← BitVec.toNat_inj]; rfl

/-! ### The decoder, row by row (R108) -/

theorem decode_cmdRow {w : Word} (h : w &&& 0xFE00#16 = 0x1000#16) : decode w = .ok (.cmd (wordByte w) (wordSettle w)) := by
  rw [decode, if_pos h]

theorem decode_dataRow {w : Word} (h : w &&& 0xFE00#16 = 0x1200#16) :
    decode w = .ok (.data (wordByte w) (wordSettle w)) := by
  have hc : ¬ w &&& 0xFE00#16 = 0x1000#16 := by rw [h]; decide
  rw [decode, if_neg hc, if_pos h]

theorem decode_nibRow {w : Word} (h : w &&& 0xFEF0#16 = 0x2000#16) :
    decode w = .ok (.nib ((wordNibble w).setWidth 8) (wordSettle w)) := by
  have hs := ((and_nibMask_iff w).1 h).1
  have hc : ¬ w &&& 0xFE00#16 = 0x1000#16 := by rw [hs]; decide
  have hd : ¬ w &&& 0xFE00#16 = 0x1200#16 := by rw [hs]; decide
  rw [decode, if_neg hc, if_neg hd, if_pos h]

theorem decode_closeWord : decode 0x3000#16 = .ok .close := rfl

/-- A word outside every row is INVALID (R109). -/
theorem decode_noRow {w : Word} (hc : ¬ w &&& 0xFE00#16 = 0x1000#16) (hd : ¬ w &&& 0xFE00#16 = 0x1200#16)
    (hn : ¬ w &&& 0xFEF0#16 = 0x2000#16) (hx : w ≠ 0x3000#16) : decode w = .error (rejectReason w) := by
  rw [decode, if_neg hc, if_neg hd, if_neg hn, if_neg hx]

/-- The row of a word that decodes, with the request its fields give. -/
theorem decode_ok_cases {w : Word} {r : Instr} (h : decode w = .ok r) :
    (w &&& 0xFE00#16 = 0x1000#16 ∧ r = .cmd (wordByte w) (wordSettle w)) ∨
    (w &&& 0xFE00#16 = 0x1200#16 ∧ r = .data (wordByte w) (wordSettle w)) ∨
    (w &&& 0xFEF0#16 = 0x2000#16 ∧ r = .nib ((wordNibble w).setWidth 8) (wordSettle w)) ∨
    (w = 0x3000#16 ∧ r = .close) := by
  by_cases hc : w &&& 0xFE00#16 = 0x1000#16
  · rw [decode_cmdRow hc] at h; cases h; exact .inl ⟨hc, rfl⟩
  by_cases hd : w &&& 0xFE00#16 = 0x1200#16
  · rw [decode_dataRow hd] at h; cases h; exact .inr (.inl ⟨hd, rfl⟩)
  by_cases hn : w &&& 0xFEF0#16 = 0x2000#16
  · rw [decode_nibRow hn] at h; cases h; exact .inr (.inr (.inl ⟨hn, rfl⟩))
  by_cases hx : w = 0x3000#16
  · subst hx; rw [decode_closeWord] at h; cases h; exact .inr (.inr (.inr ⟨rfl, rfl⟩))
  · rw [decode_noRow hc hd hn hx] at h; cases h

theorem decode_error_iff (w : Word) : (∃ r, decode w = .error r) ↔
    ¬ w &&& 0xFE00#16 = 0x1000#16 ∧ ¬ w &&& 0xFE00#16 = 0x1200#16 ∧ ¬ w &&& 0xFEF0#16 = 0x2000#16 ∧ w ≠ 0x3000#16 := by
  constructor
  · rintro ⟨r, h⟩
    refine ⟨fun hc => ?_, fun hd => ?_, fun hn => ?_, fun hx => ?_⟩
    · rw [decode_cmdRow hc] at h; cases h
    · rw [decode_dataRow hd] at h; cases h
    · rw [decode_nibRow hn] at h; cases h
    · subst hx; rw [decode_closeWord] at h; cases h
  · rintro ⟨hc, hd, hn, hx⟩
    exact ⟨_, decode_noRow hc hd hn hx⟩

/-! ### The fields of an encoded word -/

/-- The byte, the settle bit and a nibble are read back from a word whose fixed bits leave their places clear. -/
theorem wordByte_fields (m : BitVec 7) (st : Bool) (b : Byte) :
    wordByte (m.setWidth 16 <<< 9 ||| settleBit st ||| b.setWidth 16) = b := by
  ext i hi
  cases st <;> interval_cases i <;> simp [wordByte, settleBit]

theorem wordSettle_fields (m : BitVec 7) (st : Bool) (b : Byte) :
    wordSettle (m.setWidth 16 <<< 9 ||| settleBit st ||| b.setWidth 16) = st := by
  cases st <;> simp [wordSettle, settleBit]

theorem wordNibble_fields (m : BitVec 7) (st : Bool) (b : Byte) :
    wordNibble (m.setWidth 16 <<< 9 ||| settleBit st ||| b.setWidth 16) = b.setWidth 4 := by
  ext i hi
  cases st <;> interval_cases i <;> simp [wordNibble, settleBit]

@[simp] theorem wordByte_encode_cmd (b : Byte) (st : Bool) : wordByte (encode (.cmd b st)) = b :=
  wordByte_fields 0x08#7 st b

@[simp] theorem wordSettle_encode_cmd (b : Byte) (st : Bool) : wordSettle (encode (.cmd b st)) = st :=
  wordSettle_fields 0x08#7 st b

@[simp] theorem wordByte_encode_data (b : Byte) (st : Bool) : wordByte (encode (.data b st)) = b :=
  wordByte_fields 0x09#7 st b

@[simp] theorem wordSettle_encode_data (b : Byte) (st : Bool) : wordSettle (encode (.data b st)) = st :=
  wordSettle_fields 0x09#7 st b

@[simp] theorem wordNibble_encode_nib (v : Byte) (st : Bool) : wordNibble (encode (.nib v st)) = v.setWidth 4 :=
  wordNibble_fields 0x10#7 st v

@[simp] theorem wordSettle_encode_nib (v : Byte) (st : Bool) : wordSettle (encode (.nib v st)) = st :=
  wordSettle_fields 0x10#7 st v

@[simp] theorem wordRs_encode_cmd (b : Byte) (st : Bool) : wordRs (encode (.cmd b st)) = false := by
  cases st <;> simp [wordRs, encode, settleBit]

@[simp] theorem wordRs_encode_data (b : Byte) (st : Bool) : wordRs (encode (.data b st)) = true := by
  cases st <;> simp [wordRs, encode, settleBit]

/-- A 4-bit value survives the payload nibble (R102). -/
theorem setWidth_nibble {v : Byte} (h : v.toNat < 16) : (v.setWidth 4).setWidth 8 = v := by
  apply BitVec.eq_of_toNat_eq
  simp only [BitVec.toNat_setWidth]
  omega

/-- Every word is its bits 15 to 9, its settle bit and its byte (R100). -/
theorem word_eq_fields (w : Word) :
    w = (w &&& 0xFE00#16) ||| settleBit (wordSettle w) ||| (wordByte w).setWidth 16 := by
  ext i hi
  cases hs : w.getLsbD 8 <;> interval_cases i <;> simp_all [wordSettle, wordByte, settleBit]

/-- A word whose high payload nibble is clear is its bits 15 to 9, its settle bit and its nibble (R102). -/
theorem wordByte_of_nibRow {w : Word} (h : w.extractLsb' 4 4 = 0#4) : (wordNibble w).setWidth 8 = wordByte w := by
  apply BitVec.eq_of_toNat_eq
  have hp := congrArg BitVec.toNat h
  simp only [wordNibble, wordByte, BitVec.toNat_setWidth, BitVec.extractLsb'_toNat, Nat.shiftRight_eq_div_pow,
    BitVec.toNat_ofNat] at hp ⊢
  omega

/-! ### The statements about words -/

/-- Settles O1, one constructor at a time: the word lies in its row (`Laws.OpcodeRow`), and its fields read back. -/
theorem decodeOfEncodedRequest : Obligations.DecodeOfEncodedRequest := by
  unfold Obligations.DecodeOfEncodedRequest
  intro i hwf
  cases i with
  | cmd b st => rw [decode_cmdRow (Laws.OpcodeRow.cmd b st hwf), wordByte_encode_cmd, wordSettle_encode_cmd]
  | data b st => rw [decode_dataRow (Laws.OpcodeRow.data b st hwf), wordByte_encode_data, wordSettle_encode_data]
  | nib v st =>
    rw [decode_nibRow (Laws.OpcodeRow.nib v st hwf), wordNibble_encode_nib, wordSettle_encode_nib,
      setWidth_nibble (of_decide_eq_true hwf)]
  | close => exact decode_closeWord

theorem encode_of_decode {w : Word} {r : Instr} (h : decode w = .ok r) : encode r = w := by
  obtain ⟨hw, rfl⟩ | ⟨hw, rfl⟩ | ⟨hw, rfl⟩ | ⟨rfl, rfl⟩ := decode_ok_cases h
  · conv_rhs => rw [word_eq_fields w, hw]
    rfl
  · conv_rhs => rw [word_eq_fields w, hw]
    rfl
  · obtain ⟨high, low⟩ := (and_nibMask_iff w).1 hw
    conv_rhs => rw [word_eq_fields w, high]
    rw [encode, wordByte_of_nibRow low]
  · rfl

/-- Settles O2, row by row: a word is its fixed bits and the fields the decoder reads. -/
theorem encodeOfDecodedWord : Obligations.EncodeOfDecodedWord := by
  unfold Obligations.EncodeOfDecodedWord
  intro w i h
  exact ⟨encode_of_decode h, wellFormed_of_decode h⟩

/-- Settles O3 by evaluating the decoder. -/
theorem writtenWordsDecode : Obligations.WrittenWordsDecode :=
  ⟨rfl, rfl, rfl, rfl, rfl, rfl, rfl, rfl, rfl, rfl⟩

theorem decode_cmd_iff (w : Word) : (∃ b st, decode w = .ok (.cmd b st)) ↔ w &&& 0xFE00#16 = 0x1000#16 := by
  refine ⟨fun ⟨b, st, h⟩ => ?_, fun h => ⟨_, _, decode_cmdRow h⟩⟩
  obtain ⟨hw, -⟩ | ⟨-, e⟩ | ⟨-, e⟩ | ⟨-, e⟩ := decode_ok_cases h
  · exact hw
  all_goals cases e

theorem decode_data_iff (w : Word) : (∃ b st, decode w = .ok (.data b st)) ↔ w &&& 0xFE00#16 = 0x1200#16 := by
  refine ⟨fun ⟨b, st, h⟩ => ?_, fun h => ⟨_, _, decode_dataRow h⟩⟩
  obtain ⟨-, e⟩ | ⟨hw, -⟩ | ⟨-, e⟩ | ⟨-, e⟩ := decode_ok_cases h
  case inr.inl => exact hw
  all_goals cases e

theorem decode_nib_iff (w : Word) : (∃ v st, decode w = .ok (.nib v st)) ↔ w &&& 0xFEF0#16 = 0x2000#16 := by
  refine ⟨fun ⟨v, st, h⟩ => ?_, fun h => ⟨_, _, decode_nibRow h⟩⟩
  obtain ⟨-, e⟩ | ⟨-, e⟩ | ⟨hw, -⟩ | ⟨-, e⟩ := decode_ok_cases h
  case inr.inr.inl => exact hw
  all_goals cases e

theorem decode_close_iff (w : Word) : decode w = .ok .close ↔ w = 0x3000#16 := by
  refine ⟨fun h => ?_, fun h => h ▸ decode_closeWord⟩
  obtain ⟨-, e⟩ | ⟨-, e⟩ | ⟨-, e⟩ | ⟨hw, -⟩ := decode_ok_cases h
  case inr.inr.inr => exact hw
  all_goals cases e

/-- Settles O4: each row's mask test is a range of numbers. -/
theorem legalWordRanges : Obligations.LegalWordRanges := by
  unfold Obligations.LegalWordRanges
  intro w
  exact ⟨(decode_cmd_iff w).trans (cmdRow_iff w), (decode_data_iff w).trans (dataRow_iff w),
    (decode_nib_iff w).trans (nibRow_iff w), (decode_close_iff w).trans (closeRow_iff w)⟩

/-- Settles O5: the rows and the classes are both ranges of the fields, and between them they leave out no word. -/
theorem invalidWordClasses : Obligations.InvalidWordClasses := by
  unfold Obligations.InvalidWordClasses
  intro w
  have hlt := w.isLt
  rw [decode_error_iff, cmdRow_iff, dataRow_iff, nibRow_iff, Ne, closeRow_iff, wordRs_eq_true_iff]
  simp only [ne_eq, ← BitVec.toNat_inj (y := (0#4)), ← BitVec.toNat_inj (y := (2#4)), ← BitVec.toNat_inj (y := (3#4)),
    ← BitVec.toNat_inj (y := (0#2)), toNat_wordOp, toNat_wordRsv, toNat_highPayload, BitVec.toNat_ofNat]
  omega

end Sys2Proof.Machine
end

section
/-! The history and the pin record (R48, R72, R73, R76): each named operation of a tick keeps them in agreement, so each phase
and each step does. -/

namespace Sys2Proof.Machine

/-! ### What one more event says -/

theorem replay_snoc (h : List Event) (ev : Event) : replay (h ++ [ev]) = (replay h).read ev := by
  rw [replay_append]; rfl

/-- The agreement reads the history through `replay` and four fields only. -/
theorem HistoryAgrees.congr {s t : State} (ha : HistoryAgrees s) (hh : replay t.history = replay s.history)
    (hp : t.pend = s.pend) (ho : t.opened = s.opened) (hx : t.txn = s.txn) (hl : t.lvl = s.lvl) : HistoryAgrees t where
  pend := by rw [hh, hp, ha.pend]
  opened := by rw [hh, ho, ha.opened]
  txn := by rw [hh, hx, ha.txn]
  lvl := by rw [hh, hl, ha.lvl]

theorem issue_agrees (p : Chan) (op : PinOp) {s : State} (ha : HistoryAgrees s) : HistoryAgrees (issue p op s) where
  pend := by rw [issue_history, replay_snoc, issue_pend, ← ha.pend]; rfl
  opened := by rw [issue_history, replay_snoc, issue_opened, ← ha.opened]; rfl
  txn := by rw [issue_history, replay_snoc, issue_txn, ← ha.txn]; rfl
  lvl := by rw [issue_history, replay_snoc, issue_lvl, ← ha.lvl]; rfl

theorem complete_agrees (p : Chan) (st : PinStatus) {s : State} (ha : HistoryAgrees s) :
    HistoryAgrees (complete p st s) where
  pend := by rw [complete_history, replay_snoc, complete_pend, ← ha.pend]; rfl
  opened := by rw [complete_history, replay_snoc, complete_opened, ← ha.opened, ← ha.txn]; rfl
  txn := by rw [complete_history, replay_snoc, complete_txn, ← ha.txn]; rfl
  lvl := by rw [complete_history, replay_snoc, complete_lvl, ← ha.lvl, ← ha.txn]; rfl

theorem raiseError_agrees (k : RspStatus) {s : State} (ha : HistoryAgrees s) : HistoryAgrees (raiseError k s) :=
  ha.congr (replay_snoc _ _) rfl rfl rfl rfl

theorem resetTick_agrees (i : TickIn) (s : State) : HistoryAgrees (resetTick i s) := by
  constructor <;> rw [resetTick_history, replay_snoc] <;> rfl

/-- The event of a finish is no pin event. -/
theorem replay_finish (f : Bool) (s : State) : replay (finish f s).history = replay s.history := by
  rw [finish_history, replay_append]
  cases s.pk <;> cases f <;> rfl

theorem finish_agrees (f : Bool) {s : State} (ha : HistoryAgrees s) : HistoryAgrees (finish f s) :=
  ha.congr (replay_finish f s) (finish_pend f s) (finish_opened f s) (finish_txn f s) (finish_lvl f s)

/-! ### The phases -/

/-- What one channel's part of a phase keeps, going through all channels keeps. -/
theorem foldl_keeps {α : Type} {P : State → Prop} {f : State → α → State} (hf : ∀ s a, P s → P (f s a)) (as : List α) :
    ∀ s, P s → P (as.foldl f s) := by
  induction as with
  | nil => exact fun _ h => h
  | cons a as ih => exact fun s h => ih _ (hf s a h)

theorem sample_agrees (rsp : Pins (Option PinStatus)) (s : State) (p : Chan) (ha : HistoryAgrees s) :
    HistoryAgrees (sample rsp s p) := by
  unfold sample
  split
  · split
    · exact complete_agrees p _ ha
    · exact ha
  · exact ha

theorem phase1_agrees (rsp : Pins (Option PinStatus)) {s : State} (ha : HistoryAgrees s) : HistoryAgrees (phase1 rsp s) :=
  foldl_keeps (sample_agrees rsp) Chan.all s ha

theorem startGroup_agrees (ops : Pins (Option PinOp)) {s : State} (ha : HistoryAgrees s) :
    HistoryAgrees (startGroup ops s) := by
  refine foldl_keeps (fun s p h => ?_) Chan.all s ha
  unfold issueMember
  split
  · exact issue_agrees p _ h
  · exact h

theorem startItem_agrees (item : Item) {s : State} (ha : HistoryAgrees s) : HistoryAgrees (startItem item s) := by
  have counted : HistoryAgrees
      { s with upc := s.upc + 1#7, istate := if s.pk = .init then icode s.upc.toNat else s.istate } :=
    ha.congr rfl rfl rfl rfl rfl
  cases item with
  | group ops => exact startGroup_agrees ops counted
  | wait n => exact counted.congr rfl rfl rfl rfl rfl

theorem phase2_agrees {s t : State} (ha : HistoryAgrees s) (h : phase2 s = .next t) : HistoryAgrees t := by
  have waited : ∀ n, HistoryAgrees { s with wait := n } := fun n => ha.congr rfl rfl rfl rfl rfl
  obtain ⟨-, rfl⟩ | ⟨-, -, rfl⟩ | ⟨-, -, -, rfl⟩ | ⟨-, -, -, hadv⟩ := phase2_cases h
  · exact ha
  · exact ha
  · exact waited _
  · obtain ⟨-, rfl⟩ | ⟨-, -, rfl⟩ | ⟨-, item, -, rfl⟩ := advance_cases hadv
    · exact finish_agrees true (waited 0)
    · exact finish_agrees false (waited 0)
    · exact startItem_agrees item (waited 0)

theorem phase3_agrees {rq : Option Word} {m : Mode} {k : Pk} {s t : State} (ha : HistoryAgrees s)
    (h : phase3 rq m k s = .next t) : HistoryAgrees t := by
  obtain ⟨-, rfl⟩ | ⟨w, -, -, ⟨-, -, -, -, -, rfl⟩ | rfl | rfl | ⟨r, kind, -, -, -, -, -, -, rfl⟩ |
    ⟨-, -, -, -, -, rfl⟩⟩ := phase3_cases h
  · exact ha
  · exact ha
  · exact raiseError_agrees .notReady ha
  · exact raiseError_agrees .invalidValue ha
  · exact ha.congr rfl rfl rfl rfl rfl
  · exact ha.congr rfl rfl rfl rfl rfl

theorem tick_agrees {i : TickIn} {s t : State} (ha : HistoryAgrees s) (h : tick i s = .next t) : HistoryAgrees t := by
  cases hr : i.rst with
  | true =>
    rw [tick_of_rst s hr] at h
    cases h
    exact resetTick_agrees i s
  | false =>
    obtain ⟨u, h2, h3⟩ := tick_cases hr h
    have begun : HistoryAgrees (beginTick s) := ha.congr rfl rfl rfl rfl rfl
    exact phase3_agrees (phase2_agrees (phase1_agrees i.rsp begun) h2) h3

theorem dropInput_agrees {s : State} (ha : HistoryAgrees s) : HistoryAgrees (dropInput s) := by
  unfold dropInput
  split <;> exact ha.congr rfl rfl rfl rfl rfl

/-- Settles O53: a step is a tick, and each phase of a tick keeps the agreement event by event. -/
theorem stepKeepsHistoryAgreement : Obligations.StepKeepsHistoryAgreement := by
  unfold Obligations.StepKeepsHistoryAgreement
  intro s t ha h
  exact tick_agrees (dropInput_agrees ha) h

end Sys2Proof.Machine
end

section
/-! The requests (R148, R192, R193, R172, R270): `exec` of any request is one check of the same kind, told apart by the
program it runs, the modes that accept it and what its load writes. -/

namespace Sys2Proof.Machine

/-- The program a request runs (R140). -/
def programKind : Instr → Pk
  | .cmd _ _ => .frame
  | .data _ _ => .frame
  | .nib _ _ => .nib
  | .close => .close

/-- The modes that accept a request (R303). -/
def admittedIn : Instr → Mode → Bool
  | .cmd _ _ => readyOnly
  | .data _ _ => readyOnly
  | .nib _ _ => readyOnly
  | .close => readyOrFailed

/-- The load of a request: only CLOSE captures `opened` (R148). -/
def loadRequest (r : Instr) (s : State) : State :=
  match r with
  | .cmd b st => load .frame (encode (.cmd b st)) s
  | .data b st => load .frame (encode (.data b st)) s
  | .nib v st => load .nib (encode (.nib v st)) s
  | .close => loadClose (encode .close) s

/-- The meaning of every request is R148's check with these three. -/
theorem exec_eq_request (r : Instr) (s : State) :
    exec r s = .next (request r.wellFormed (admittedIn r) (loadRequest r) s) := by
  cases r <;> rfl

theorem admittedIn_eq_true_iff (r : Instr) (m : Mode) :
    admittedIn r m = true ↔ m = .ready ∨ (m = .failed ∧ r = .close) := by
  cases r <;> simp [admittedIn, readyOnly, readyOrFailed]

/-! ### What a load writes -/

@[simp] theorem loadRequest_params (r : Instr) (s : State) : (loadRequest r s).params = s.params := by cases r <;> rfl
@[simp] theorem loadRequest_mode (r : Instr) (s : State) : (loadRequest r s).mode = s.mode := by cases r <;> rfl
@[simp] theorem loadRequest_pk (r : Instr) (s : State) : (loadRequest r s).pk = programKind r := by cases r <;> rfl
@[simp] theorem loadRequest_upc (r : Instr) (s : State) : (loadRequest r s).upc = 0#7 := by cases r <;> rfl
@[simp] theorem loadRequest_hWord (r : Instr) (s : State) : (loadRequest r s).hWord = encode r := by cases r <;> rfl
@[simp] theorem loadRequest_pend (r : Instr) (s : State) : (loadRequest r s).pend = s.pend := by cases r <;> rfl
@[simp] theorem loadRequest_fault (r : Instr) (s : State) : (loadRequest r s).fault = false := by cases r <;> rfl
@[simp] theorem loadRequest_wait (r : Instr) (s : State) : (loadRequest r s).wait = s.wait := by cases r <;> rfl
@[simp] theorem loadRequest_opened (r : Instr) (s : State) : (loadRequest r s).opened = s.opened := by cases r <;> rfl
@[simp] theorem loadRequest_istate (r : Instr) (s : State) : (loadRequest r s).istate = s.istate := by cases r <;> rfl
@[simp] theorem loadRequest_txn (r : Instr) (s : State) : (loadRequest r s).txn = s.txn := by cases r <;> rfl
@[simp] theorem loadRequest_lvl (r : Instr) (s : State) : (loadRequest r s).lvl = s.lvl := by cases r <;> rfl
@[simp] theorem loadRequest_history (r : Instr) (s : State) : (loadRequest r s).history = s.history := by cases r <;> rfl
@[simp] theorem loadRequest_now (r : Instr) (s : State) : (loadRequest r s).now = s.now := by cases r <;> rfl
@[simp] theorem loadRequest_out (r : Instr) (s : State) : (loadRequest r s).out = s.out := by cases r <;> rfl
@[simp] theorem loadRequest_hCmask_close (s : State) : (loadRequest .close s).hCmask = s.opened := rfl

theorem programKind_ne_none (r : Instr) : programKind r ≠ .none := by cases r <;> simp [programKind]

theorem programKind_ne_init (r : Instr) : programKind r ≠ .init := by cases r <;> simp [programKind]

theorem programKind_eq_close_iff {r : Instr} : programKind r = .close ↔ r = .close := by
  cases r <;> simp [programKind]

/-- The program of a request whose load it is (R140). -/
def programOf (c : Params) (opened : ChanSet) : Instr → List Item
  | .cmd b st => frame c b false ++ settle c st
  | .data b st => frame c b true ++ settle c st
  | .nib v st => nibble c (v.setWidth 4) ++ settle c st
  | .close => closeProg opened

theorem prog_loadRequest (r : Instr) (s : State) : prog (loadRequest r s) = programOf s.params s.opened r := by
  cases r <;> simp [prog, programKind, programOf]

/-! ### The outcomes of a request -/

/-- An idle block that admits a legal request loads it. -/
theorem exec_loads {r : Instr} {s : State} (hk : s.pk = .none) (hw : r.wellFormed = true)
    (hm : s.mode = .ready ∨ (s.mode = .failed ∧ r = .close)) : exec r s = .next (loadRequest r s) := by
  have ha : admittedIn r s.mode = true := (admittedIn_eq_true_iff r s.mode).2 hm
  have hi : ¬ (s.mode = .init ∨ s.mode = .closed) := by
    obtain h | ⟨h, -⟩ := hm <;> simp [h]
  rw [exec_eq_request, request, if_neg hi, if_neg (not_not_intro hk), hw, if_neg (by decide), if_pos ha]

/-- Everything `exec` can do: leave a busy block as it is, answer an error, or load. -/
theorem exec_cases {r : Instr} {s t : State} (h : exec r s = .next t) :
    (s.pk ≠ .none ∧ t = s) ∨ t = raiseError .notReady s ∨ t = raiseError .invalidValue s ∨
    (s.pk = .none ∧ r.wellFormed = true ∧ (s.mode = .ready ∨ (s.mode = .failed ∧ r = .close)) ∧ t = loadRequest r s) := by
  rw [exec_eq_request] at h
  cases h
  obtain ⟨-, e⟩ | ⟨-, -, hk, e⟩ | ⟨-, -, -, -, e⟩ | ⟨-, -, hk, hw, ha, e⟩ | ⟨-, -, -, -, -, e⟩ :=
    request_cases r.wellFormed (admittedIn r) (loadRequest r) s <;> rw [e]
  · exact .inr (.inl rfl)
  · exact .inl ⟨hk, rfl⟩
  · exact .inr (.inr (.inl rfl))
  · exact .inr (.inr (.inr ⟨hk, hw, (admittedIn_eq_true_iff r s.mode).1 ha, rfl⟩))
  · exact .inr (.inl rfl)

/-- A program that runs after an idle block's request was loaded by it. -/
theorem exec_loaded {r : Instr} {s t : State} (hk : s.pk = .none) (h : exec r s = .next t) (ht : t.pk ≠ .none) :
    t = loadRequest r s ∧ r.wellFormed = true ∧ (s.mode = .ready ∨ (s.mode = .failed ∧ r = .close)) := by
  obtain ⟨hb, -⟩ | rfl | rfl | ⟨-, hw, hm, rfl⟩ := exec_cases h
  · exact absurd hk hb
  · exact absurd hk ht
  · exact absurd hk ht
  · exact ⟨rfl, hw, hm⟩

/-- A word is ready to be taken by an idle block, or in INIT (R147). -/
theorem rqReady_eq_true_iff (m : Mode) (k : Pk) : rqReady m k = true ↔ k = .none ∨ m = .init := by simp [rqReady]

/-- Everything phase 3 can do: leave the state, turn a word away, or load the request a word decodes to. -/
theorem phase3_outcomes {rq : Option Word} {m : Mode} {k : Pk} {s t : State} (h : phase3 rq m k s = .next t) :
    ((rq = none ∨ rqReady m k = false ∨ (k = .none ∧ s.pk ≠ .none)) ∧ t = s) ∨
    (rq.isSome = true ∧ rqReady m k = true ∧ t = raiseError .notReady s) ∨
    (rq.isSome = true ∧ k = .none ∧ t = raiseError .invalidValue s) ∨
    (k = .none ∧ ∃ w r, rq = some w ∧ decode w = .ok r ∧ s.pk = .none ∧
      (s.mode = .ready ∨ (s.mode = .failed ∧ r = .close)) ∧ t = loadRequest r s) := by
  unfold phase3 at h
  split at h
  · cases h; exact .inl ⟨.inl rfl, rfl⟩
  · rename_i w
    split at h
    · cases h; exact .inl ⟨.inr (.inl ‹_›), rfl⟩
    · have hq : rqReady m k = true := by simpa using ‹¬ rqReady m k = false›
      split at h
      · cases h; exact .inr (.inl ⟨rfl, hq, rfl⟩)
      · rename_i hm
        rw [not_or] at hm
        have hk : k = .none := ((rqReady_eq_true_iff m k).1 hq).resolve_right hm.1
        split at h
        · cases h; exact .inr (.inr (.inl ⟨rfl, hk, rfl⟩))
        · rename_i r hd
          obtain ⟨hb, rfl⟩ | rfl | rfl | ⟨hs, -, ha, rfl⟩ := exec_cases h
          · exact .inl ⟨.inr (.inr ⟨hk, hb⟩), rfl⟩
          · exact .inr (.inl ⟨rfl, hq, rfl⟩)
          · exact .inr (.inr (.inl ⟨rfl, hk, rfl⟩))
          · exact .inr (.inr (.inr ⟨hk, w, r, rfl, hd, hs, ha, rfl⟩))

/-! ### The statements about requests -/

/-- Settles O6: an idle block's phases 1 and 2 do nothing beyond sampling, and phase 3 hands the word to `exec`. -/
theorem stepRunsDecodedWord : Obligations.StepRunsDecodedWord := by
  unfold Obligations.StepRunsDecodedWord
  intro s w i hr hq hd hk hm
  have h2 : phase2 (phase1 (nextInput s).rsp (beginTick (dropInput s))) =
      .next (phase1 (nextInput s).rsp (beginTick (dropInput s))) := phase2_idle (by simpa using hk)
  rw [step, tick_of_not_rst _ hr, h2, hq, dropInput_mode, dropInput_pk, hk]
  exact phase3_decoded _ (rqReady_of_idle _) hm hd

theorem decode_of_decodeTableWord {nbits w : Nat} {i : Instr} (h : decodeTableWord nbits w = some i) :
    decode (BitVec.ofNat 16 (w % 2 ^ nbits)) = .ok i := by
  unfold decodeTableWord at h
  split at h
  · split at h
    · cases h; assumption
    · cases h
  · cases h

theorem placeWord_mode (w : Word) (s : State) : (placeWord w s).mode = .ready ∨ (placeWord w s).mode = .failed := by
  unfold placeWord
  by_cases h : s.mode = .failed
  · exact .inr (if_pos h)
  · exact .inl (if_neg h)

/-- Settles O7: the placed state is idle with its word presented first, and nothing is outstanding to be sampled. -/
theorem stepRunsPlacedWord : Obligations.StepRunsPlacedWord := by
  unfold Obligations.StepRunsPlacedWord
  intro s nbits w i h
  have hstep := stepRunsDecodedWord (s.withFetchWord nbits w) _ i rfl rfl (decode_of_decodeTableWord h) rfl
    (placeWord_mode _ s)
  rw [hstep, phase1_idle rfl]
  rfl

/-- Settles O8: the load of CMD, and the fields its program reads back from the word. -/
theorem cmdLoadsCommandFrame : Obligations.CmdLoadsCommandFrame := by
  unfold Obligations.CmdLoadsCommandFrame
  intro b st s hm hk
  exact ⟨_, exec_loads hk rfl (.inl hm), rfl, prog_loadRequest (.cmd b st) s⟩

/-- Settles O9: the load of DATA, and the fields its program reads back from the word. -/
theorem dataLoadsDataFrame : Obligations.DataLoadsDataFrame := by
  unfold Obligations.DataLoadsDataFrame
  intro b st s hm hk
  exact ⟨_, exec_loads hk rfl (.inl hm), rfl, prog_loadRequest (.data b st) s⟩

/-- Settles O10: the load of NIB, and the nibble its program reads back from the word. -/
theorem nibLoadsNibble : Obligations.NibLoadsNibble := by
  unfold Obligations.NibLoadsNibble
  intro v st s hm hk hv
  exact ⟨_, exec_loads hk (decide_eq_true hv) (.inl hm), rfl, prog_loadRequest (.nib v st) s⟩

/-- Settles O11: the legality check comes before the mode's. -/
theorem nibRejectsWideValue : Obligations.NibRejectsWideValue := by
  unfold Obligations.NibRejectsWideValue
  intro v st s hm hk hv
  have hw : (Instr.nib v st).wellFormed = false := decide_eq_false (by omega)
  have hi : ¬ (s.mode = .init ∨ s.mode = .closed) := by
    obtain h | h := hm <;> simp [h]
  refine ⟨raiseError .invalidValue s, ?_, raiseError_rejectedWith _ s⟩
  rw [exec_eq_request, request, if_neg hi, if_neg (not_not_intro hk), if_pos hw]

/-- Settles O12: the load of CLOSE captures `opened`, from which its program is made. -/
theorem closeLoadsRelease : Obligations.CloseLoadsRelease := by
  unfold Obligations.CloseLoadsRelease
  intro s hm hk
  exact ⟨_, exec_loads hk rfl (hm.imp id fun h => ⟨h, rfl⟩), rfl, prog_loadRequest .close s⟩

/-- Settles O13, check by check of R148. -/
theorem requestsTurnedAway : Obligations.RequestsTurnedAway := by
  unfold Obligations.RequestsTurnedAway
  intro i s
  refine ⟨fun hm => ?initOrClosed, fun hm hk hw hc => ?failed, fun hm hk => ?busy⟩
  case initOrClosed =>
    refine ⟨raiseError .notReady s, ?_, raiseError_rejectedWith _ s⟩
    rw [exec_eq_request, request, if_pos hm]
  case failed => exact ⟨_, exec_failed_of_ne_close hm hk hw hc, raiseError_rejectedWith _ s⟩
  case busy =>
    have hi : ¬ (s.mode = .init ∨ s.mode = .closed) := by
      obtain h | h := hm <;> simp [h]
    rw [exec_eq_request, request, if_neg hi, if_pos hk]

end Sys2Proof.Machine
end

section
/-! The block's invariant: each phase of a tick keeps it, so each step does. Phase 1 is the part that needs the items of
the running program: what a response does depends on the operation that is outstanding. -/

namespace Sys2Proof.Machine

/-! ### The item started last -/

theorem currentItem_of_upc_zero {s : State} (h : s.upc = 0#7) : currentItem s = none := if_pos h

/-- The item started last is an item of the program. -/
theorem mem_prog_of_currentItem {s : State} {item : Item} (h : currentItem s = some item) : item ∈ prog s := by
  unfold currentItem at h
  split at h
  · cases h
  · exact List.mem_of_getElem? h

/-- An item that starts is the item started last, whatever else its start does. -/
theorem currentItem_of_counted {s t : State} {item : Item} (h : (prog s)[s.upc.toNat]? = some item)
    (hu : t.upc = s.upc + 1#7) (hp : prog t = prog s) : currentItem t = some item := by
  obtain ⟨hn, h0⟩ := upc_succ h
  unfold currentItem
  rw [hu, if_neg h0, hn, hp, Nat.add_sub_cancel]
  exact h

theorem closeProg_cases {m : ChanSet} {k : Nat} {item : Item} (h : (closeProg m)[k]? = some item) :
    k = 0 ∧ m ≠ 0#6 ∧ item = .group (Pins.ofFn fun p => if hasBit m p then some .closePin else none) := by
  unfold closeProg at h
  split at h
  · simp at h
  · cases k with
    | zero => exact ⟨rfl, ‹_›, by simpa using h.symm⟩
    | succ k => simp at h

theorem initProg_first (c : Params) (rm1 : BitVec 2) (lf : Bool) :
    (initProg c rm1 lf)[0]? = some (.group (Pins.const (some .openPin))) := rfl

/-- INIT's items after the first are writes and waits. -/
theorem initProg_later {c : Params} {rm1 : BitVec 2} {lf : Bool} {k : Nat} {ops : Pins (Option PinOp)}
    (h : (initProg c rm1 lf)[k + 1]? = some (.group ops)) : WritesOnly (.group ops) := by
  have htail : (initProg c rm1 lf).tail[k]? = some (.group ops) := by rw [List.getElem?_tail]; exact h
  obtain hw | ⟨n, -, e⟩ := mem_initProg_tail (List.mem_of_getElem? htail)
  · exact hw
  · cases e

/-- The groups of NIB and FRAME write levels only. -/
theorem writesOnly_of_mem {s : State} {ops : Pins (Option PinOp)} (hk : s.pk = .nib ∨ s.pk = .frame)
    (h : Item.group ops ∈ prog s) : WritesOnly (.group ops) := by
  have noWait : ∀ {n}, Item.group ops ≠ .wait n := fun e => by cases e
  unfold prog at h
  obtain e | e := hk <;> rw [e] at h <;> obtain h | h := List.mem_append.1 h
  · exact (mem_nibble h).resolve_right noWait
  · exact absurd (mem_settle h) noWait
  · exact (mem_frame h).resolve_right noWait
  · exact absurd (mem_settle h) noWait

theorem WritesOnly.op {ops : Pins (Option PinOp)} {p : Chan} {op : PinOp} (h : WritesOnly (.group ops))
    (hp : ops.get p = some op) : ∃ v, op = .write v := by
  obtain ⟨ops', e, hw⟩ := h
  cases e
  exact hw p op hp

/-! ### Modes and programs (R303) -/

theorem legalPair_none_of_ne_init {m : Mode} (h : m ≠ .init) : legalPair m .none = true := by
  cases m with
  | init => exact absurd rfl h
  | ready => rfl
  | closed => rfl
  | failed => rfl

theorem BlockInv.pk_of_init {s : State} (hi : BlockInv s) (hm : s.mode = .init) : s.pk = .init := by
  have hl := hi.modePk
  rw [hm] at hl
  exact of_decide_eq_true hl

theorem BlockInv.pk_of_closed {s : State} (hi : BlockInv s) (hm : s.mode = .closed) : s.pk = .none := by
  have hl := hi.modePk
  rw [hm] at hl
  exact of_decide_eq_true hl

theorem BlockInv.mode_of_init {s : State} (hi : BlockInv s) (hk : s.pk = .init) : s.mode = .init := by
  have hl := hi.modePk
  rw [hk] at hl
  exact legalPair_pk_init hl

/-- NIB and FRAME run in READY only. -/
theorem BlockInv.mode_of_send {s : State} (hi : BlockInv s) (hk : s.pk = .nib ∨ s.pk = .frame) : s.mode = .ready := by
  have hl := hi.modePk
  obtain e | e := hk <;> rw [e] at hl <;> revert hl <;> cases s.mode <;> decide

/-! ### What may be outstanding -/

theorem BlockInv.pend_of_idle {s : State} (hi : BlockInv s) (hk : s.pk = .none) (p : Chan) : hasBit s.pend p = false := by
  rw [(hi.idle hk).1, hasBit_zero]

/-- Nothing is outstanding before a program's first item starts. -/
theorem BlockInv.pend_of_upc_zero {s : State} (hi : BlockInv s) (hu : s.upc = 0#7) (p : Chan) : hasBit s.pend p = false := by
  by_contra hp
  obtain ⟨ops, hc, -⟩ := hi.outstanding p (by simpa using hp)
  rw [currentItem_of_upc_zero hu] at hc
  cases hc

/-- While CLOSE runs, only closes are outstanding (R271). -/
theorem BlockInv.txn_of_close {s : State} (hi : BlockInv s) (hk : s.pk = .close) {p : Chan} (hp : hasBit s.pend p = true) :
    s.txn.get p = .closePin := by
  obtain ⟨ops, hc, ho⟩ := hi.outstanding p hp
  have hm := mem_prog_of_currentItem hc
  obtain ⟨k, hget⟩ := List.mem_iff_getElem?.1 hm
  have e : prog s = closeProg s.hCmask := by unfold prog; rw [hk]
  rw [e] at hget
  obtain ⟨-, -, e⟩ := closeProg_cases hget
  cases e
  rw [Pins.get_ofFn] at ho
  split at ho
  · exact (Option.some.inj ho).symm
  · cases ho

/-- While NIB or FRAME runs, only writes are outstanding (R170, R190). -/
theorem BlockInv.txn_of_send {s : State} (hi : BlockInv s) (hk : s.pk = .nib ∨ s.pk = .frame) {p : Chan}
    (hp : hasBit s.pend p = true) : ∃ v, s.txn.get p = .write v := by
  obtain ⟨ops, hc, ho⟩ := hi.outstanding p hp
  exact (writesOnly_of_mem hk (mem_prog_of_currentItem hc)).op ho

/-- INIT's outstanding transactions are the opens of its first item, and writes after it (R241). -/
theorem BlockInv.txn_of_init {s : State} (hi : BlockInv s) (hk : s.pk = .init) {p : Chan} (hp : hasBit s.pend p = true) :
    (s.upc = 1#7 ∧ s.txn.get p = .openPin) ∨ (s.upc ≠ 1#7 ∧ ∃ v, s.txn.get p = .write v) := by
  obtain ⟨ops, hc, ho⟩ := hi.outstanding p hp
  have e : prog s = initProg s.params s.cfgRowsM1Q s.cfgLfQ := by unfold prog; rw [hk]
  unfold currentItem at hc
  split at hc
  · cases hc
  · rename_i h0
    rw [e] at hc
    by_cases h1 : s.upc = 1#7
    · left
      rw [h1] at hc
      cases (initProg_first _ _ _).symm.trans hc
      rw [Pins.get_const] at ho
      exact ⟨h1, (Option.some.inj ho).symm⟩
    · right
      have hk : s.upc.toNat - 1 = (s.upc.toNat - 2) + 1 := by
        have h0' : s.upc.toNat ≠ 0 := fun e => h0 (BitVec.eq_of_toNat_eq e)
        have h1' : s.upc.toNat ≠ 1 := fun e => h1 (BitVec.eq_of_toNat_eq e)
        omega
      rw [hk] at hc
      exact ⟨h1, (initProg_later hc).op ho⟩

/-! ### Phase 1 -/

/-- A response to a write leaves `opened` as it is (R76). -/
theorem phase1_opened_of_writes {s : State} (rsp : Pins (Option PinStatus))
    (hw : ∀ p, hasBit s.pend p = true → ∃ v, s.txn.get p = .write v) : (phase1 rsp s).opened = s.opened := by
  apply ChanSet.ext_hasBit
  intro p
  rw [phase1_opened]
  cases ha : answer rsp s p with
  | none => rfl
  | some st =>
    obtain ⟨v, hv⟩ := hw p (answer_some ha).1
    simp [hv, openBit]

theorem BlockInv.phase1_opened_ready {s : State} (hi : BlockInv s) (rsp : Pins (Option PinStatus)) (hm : s.mode = .ready)
    (hk : s.pk ≠ .close) : (phase1 rsp s).opened = s.opened := by
  apply phase1_opened_of_writes
  intro p hp
  cases e : s.pk with
  | none => rw [hi.pend_of_idle e] at hp; cases hp
  | init => exact absurd ((hi.mode_of_init e).symm.trans hm) (by decide)
  | nib => exact hi.txn_of_send (.inl e) hp
  | frame => exact hi.txn_of_send (.inr e) hp
  | close => exact absurd e hk

/-- INIT loses no channel in phase 1: a channel stays open, opens, latches a fault, or stays outstanding. -/
theorem BlockInv.phase1_initOpens {s : State} (hi : BlockInv s) (rsp : Pins (Option PinStatus)) (hm : s.mode = .init)
    (hu : s.upc ≠ 0#7) (p : Chan) : hasBit (phase1 rsp s).opened p = true ∨ (phase1 rsp s).fault = true ∨
      (s.upc = 1#7 ∧ hasBit (phase1 rsp s).pend p = true) := by
  have hk : s.pk = .init := hi.pk_of_init hm
  rw [phase1_opened]
  cases ha : answer rsp s p with
  | none =>
    obtain ho | hf | ⟨h1, hp⟩ := hi.initOpens hm hu p
    · exact .inl ho
    · exact .inr (.inl (by rw [phase1_fault, hf]; rfl))
    · refine .inr (.inr ⟨h1, ?_⟩)
      rw [answer, if_pos hp] at ha
      rw [phase1_pend, hp, ha]; rfl
  | some st =>
    obtain ⟨hp, -⟩ := answer_some ha
    obtain ⟨h1, hop⟩ | ⟨h1, v, hv⟩ := hi.txn_of_init hk hp
    · cases st with
      | ok => exact .inl (by simp [hop, openBit])
      | fault =>
        refine .inr (.inl ?_)
        rw [phase1_fault, Bool.or_eq_true, List.any_eq_true]
        exact .inr ⟨p, Chan.mem_all p, decide_eq_true ha⟩
    · obtain ho | hf | ⟨h1', -⟩ := hi.initOpens hm hu p
      · exact .inl (by simp [hv, openBit, ho])
      · exact .inr (.inl (by rw [phase1_fault, hf]; rfl))
      · exact absurd h1' h1

/-- A channel that is still open while CLOSE runs has not answered its close. -/
theorem BlockInv.phase1_closing {s : State} (hi : BlockInv s) (rsp : Pins (Option PinStatus)) (hk : s.pk = .close) {p : Chan}
    (ho : hasBit (phase1 rsp s).opened p = true) :
    hasBit s.hCmask p = true ∧ (s.upc = 0#7 ∨ hasBit (phase1 rsp s).pend p = true) := by
  rw [phase1_opened] at ho
  cases ha : answer rsp s p with
  | some st =>
    rw [ha, hi.txn_of_close hk (answer_some ha).1] at ho
    cases ho
  | none =>
    rw [ha] at ho
    obtain ⟨hc, h⟩ := hi.closing hk p ho
    refine ⟨hc, h.imp id fun hp => ?_⟩
    rw [answer, if_pos hp] at ha
    rw [phase1_pend, hp, ha]; rfl

/-- Phase 1 does nothing when nothing is outstanding. -/
theorem phase1_of_no_pend {s : State} (rsp : Pins (Option PinStatus)) (h : ∀ p, hasBit s.pend p = false) :
    phase1 rsp s = s := phase1_idle (ChanSet.eq_zero_iff.2 h)

theorem phase1_inv (rsp : Pins (Option PinStatus)) {s : State} (hi : BlockInv s) : BlockInv (phase1 rsp s) where
  params := by simpa using hi.params
  modePk := by simpa using hi.modePk
  idle hk := by
    rw [phase1_pk] at hk
    rw [phase1_idle (hi.idle hk).1]; exact hi.idle hk
  upcRange := by simpa using hi.upcRange
  waitRange := by simpa using hi.waitRange
  waiting hw := by
    rw [phase1_wait] at hw
    rw [phase1_idle (hi.waiting hw).1]; exact hi.waiting hw
  outstanding p hp := by
    rw [phase1_pend, Bool.and_eq_true] at hp
    obtain ⟨ops, hc, ho⟩ := hi.outstanding p hp.1
    refine ⟨ops, ?_, by rw [phase1_txn]; exact ho⟩
    simpa [currentItem] using hc
  held := by simpa using hi.held
  istateInit := by simpa using hi.istateInit
  istateReady := by simpa using hi.istateReady
  fresh hk hu := by
    rw [phase1_pk] at hk; rw [phase1_upc] at hu
    rw [phase1_of_no_pend rsp (hi.pend_of_upc_zero hu)]; exact hi.fresh hk hu
  initFresh hm hu := by
    rw [phase1_mode] at hm; rw [phase1_upc] at hu
    rw [phase1_of_no_pend rsp (hi.pend_of_upc_zero hu)]; exact hi.initFresh hm hu
  initOpens hm hu := by
    rw [phase1_mode] at hm; rw [phase1_upc] at hu ⊢
    exact hi.phase1_initOpens rsp hm hu
  readyOpen hm hk := by
    rw [phase1_mode] at hm; rw [phase1_pk] at hk
    rw [hi.phase1_opened_ready rsp hm hk]; exact hi.readyOpen hm hk
  closing hk p ho := by
    rw [phase1_pk] at hk; rw [phase1_hCmask, phase1_upc]
    exact hi.phase1_closing rsp hk ho
  closedReleased hm := by
    rw [phase1_mode] at hm
    rw [phase1_idle (hi.idle (hi.pk_of_closed hm)).1]; exact hi.closedReleased hm

/-! ### Phase 2 -/

/-- A wait counted down keeps the invariant, and so does its end. -/
theorem BlockInv.setWait {s : State} (hi : BlockInv s) {n : Nat} (hn : n ≤ s.wait) (hk : s.pk ≠ .none) :
    BlockInv { s with wait := n } :=
  { hi with
    idle := fun h => absurd h hk
    waitRange := Nat.lt_of_le_of_lt hn hi.waitRange
    waiting := fun hw => by
      obtain ⟨hp, hf, m, hc, hm⟩ := hi.waiting (Nat.lt_of_lt_of_le hw hn)
      exact ⟨hp, hf, m, hc, Nat.le_trans hn hm⟩ }

/-- CLOSE ends with nothing open: each close has answered, or there was none to issue (R271, R273). -/
theorem BlockInv.opened_at_closeEnd {s : State} (hi : BlockInv s) (hk : s.pk = .close) (hp : s.pend = 0#6)
    (hend : s.fault = true ∨ s.upc.toNat = (prog s).length) : s.opened = 0#6 := by
  rw [ChanSet.eq_zero_iff]
  intro p
  by_contra ho
  obtain ⟨hc, hu | hpp⟩ := hi.closing hk p (by simpa using ho)
  · have hf : s.fault = false := hi.fresh (by rw [hk]; decide) hu
    have hlen : (prog s).length = 0 := by
      obtain h | h := hend
      · rw [hf] at h; cases h
      · rw [← h, hu]; rfl
    have hm : s.hCmask ≠ 0#6 := fun e => by rw [e, hasBit_zero] at hc; cases hc
    simp [prog, hk, closeProg, hm] at hlen
  · rw [hp, hasBit_zero] at hpp; cases hpp

/-- INIT that ends without a fault has every channel open (R248). -/
theorem BlockInv.opened_at_initEnd {s : State} (hi : BlockInv s) (hm : s.mode = .init) (hk : s.pk = .init)
    (hp : s.pend = 0#6) (hf : s.fault = false) (hu : s.upc.toNat = (prog s).length) : s.opened = 0b111111#6 := by
  rw [ChanSet.eq_ones_iff]
  intro p
  have hu0 : s.upc ≠ 0#7 := by
    intro e
    rw [e, prog, hk] at hu
    simp at hu
  obtain ho | h | ⟨-, hpp⟩ := hi.initOpens hm hu0 p
  · exact ho
  · rw [hf] at h; cases h
  · rw [hp, hasBit_zero] at hpp; cases hpp

/-- Every finish leaves INIT. -/
theorem finish_mode_ne_init (f : Bool) {s : State} (hi : BlockInv s) (hk : s.pk ≠ .none) : (finish f s).mode ≠ .init := by
  have sending : s.pk = .nib ∨ s.pk = .frame → s.mode ≠ .init := fun h => by rw [hi.mode_of_send h]; decide
  rw [finish_mode]
  cases e : s.pk with
  | none => exact absurd e hk
  | init => cases f <;> exact fun h => by cases h
  | nib => exact sending (.inl e)
  | frame => exact sending (.inr e)
  | close => exact fun h => by cases h

/-- A finish that leads to READY leaves every channel open and `istate` at 8 (R247, R248). -/
theorem finish_ready {s : State} (hi : BlockInv s) (hk : s.pk ≠ .none) (hp : s.pend = 0#6)
    (hend : s.fault = true ∨ s.upc.toNat = (prog s).length) (h : (finish s.fault s).mode = .ready) :
    (finish s.fault s).istate = .ready ∧ (finish s.fault s).opened = 0b111111#6 := by
  rw [finish_mode] at h
  rw [finish_istate, finish_opened]
  cases e : s.pk with
  | none => exact absurd e hk
  | init =>
    cases ef : s.fault with
    | true => rw [e, ef] at h; cases h
    | false => exact ⟨rfl, hi.opened_at_initEnd (hi.mode_of_init e) e hp ef (hend.resolve_left (by simp [ef]))⟩
  | nib => rw [e] at h; exact ⟨hi.istateReady h, hi.readyOpen h (by rw [e]; decide)⟩
  | frame => rw [e] at h; exact ⟨hi.istateReady h, hi.readyOpen h (by rw [e]; decide)⟩
  | close => rw [e] at h; cases h

/-- A finish that leads to CLOSED leaves nothing open (R270). -/
theorem finish_closed {s : State} (hi : BlockInv s) (hk : s.pk ≠ .none) (hp : s.pend = 0#6)
    (hend : s.fault = true ∨ s.upc.toNat = (prog s).length) (h : (finish s.fault s).mode = .closed) :
    (finish s.fault s).opened = 0#6 := by
  rw [finish_mode] at h
  rw [finish_opened]
  cases e : s.pk with
  | none => exact absurd e hk
  | init => rw [e] at h; cases ef : s.fault <;> rw [ef] at h <;> cases h
  | nib => rw [e] at h; exact absurd ((hi.mode_of_send (.inl e)).symm.trans h) (by decide)
  | frame => rw [e] at h; exact absurd ((hi.mode_of_send (.inr e)).symm.trans h) (by decide)
  | close => exact hi.opened_at_closeEnd e hp hend

/-- A finish whose fault flag is the latch's and whose items are all complete keeps the invariant (R146). -/
theorem finish_inv {s : State} (hi : BlockInv s) (hk : s.pk ≠ .none) (hp : s.pend = 0#6) (hw : s.wait = 0)
    (hend : s.fault = true ∨ s.upc.toNat = (prog s).length) : BlockInv (finish s.fault s) := by
  have ended : (finish s.fault s).pk = .none := finish_pk _ s
  have not_init : (finish s.fault s).mode ≠ .init := finish_mode_ne_init _ hi hk
  have ready := finish_ready hi hk hp hend
  exact {
    params := by simpa using hi.params
    modePk := by rw [ended]; exact legalPair_none_of_ne_init not_init
    idle := fun _ => ⟨by simpa using hp, by simpa using hw⟩
    upcRange := fun h => absurd ended h
    waitRange := by simpa using hi.waitRange
    waiting := fun h => by rw [finish_wait, hw] at h; cases h
    outstanding := fun p h => by rw [finish_pend, hp, hasBit_zero] at h; cases h
    held := by rw [ended]; trivial
    istateInit := fun h => absurd h not_init
    istateReady := fun h => (ready h).1
    fresh := fun h => absurd ended h
    initFresh := fun h => absurd h not_init
    initOpens := fun h => absurd h not_init
    readyOpen := fun h _ => (ready h).2
    closing := fun h => by rw [ended] at h; cases h
    closedReleased := finish_closed hi hk hp hend }

@[simp] theorem startItem_prog (item : Item) (s : State) : prog (startItem item s) = prog s := by
  apply prog_congr <;> simp

theorem startItem_group_pend (ops : Pins (Option PinOp)) (s : State) (p : Chan) :
    hasBit (startItem (.group ops) s).pend p = (hasBit s.pend p || (ops.get p).isSome) :=
  startGroup_pend ops _ p

theorem startItem_group_txn (ops : Pins (Option PinOp)) (s : State) (p : Chan) :
    (startItem (.group ops) s).txn.get p = (ops.get p).getD (s.txn.get p) :=
  startGroup_txn ops _ p

theorem startItem_group_wait (ops : Pins (Option PinOp)) (s : State) : (startItem (.group ops) s).wait = s.wait := by
  simp [startItem]

theorem startItem_wait_pend (n : Nat) (s : State) : (startItem (.wait n) s).pend = s.pend := rfl

theorem startItem_wait_txn (n : Nat) (s : State) : (startItem (.wait n) s).txn = s.txn := rfl

theorem startItem_wait_wait (n : Nat) (s : State) : (startItem (.wait n) s).wait = n % 2 ^ s.params.wWait := rfl

/-- A program's wait loads its count as it is (R13, R143). -/
theorem startItem_wait_count {s : State} {n : Nat} (hl : Config.legal s.params = true) (h : Item.wait n ∈ prog s) :
    (startItem (.wait n) s).wait = n := by
  rw [startItem_wait_wait, Nat.mod_eq_of_lt (count_range hl (wait_mem_prog h)).2]

/-- An item that starts when everything before it is complete keeps the invariant. -/
theorem startItem_inv {s : State} {item : Item} (hi : BlockInv s) (hk : s.pk ≠ .none) (hp : s.pend = 0#6) (hw : s.wait = 0)
    (hf : s.fault = false) (hitem : (prog s)[s.upc.toNat]? = some item) : BlockInv (startItem item s) := by
  obtain ⟨hu, hu0⟩ := upc_succ hitem
  have hcur : currentItem (startItem item s) = some item :=
    currentItem_of_counted hitem (startItem_upc item s) (startItem_prog item s)
  have hmem : item ∈ prog s := List.mem_of_getElem? hitem
  have hlt : s.upc.toNat < (prog s).length := (List.getElem?_eq_some_iff.1 hitem).1
  have no_pend : ∀ p, hasBit s.pend p = false := ChanSet.eq_zero_iff.1 hp
  refine {
    params := by simpa using hi.params
    modePk := by simpa using hi.modePk
    idle := fun h => absurd ((startItem_pk item s).symm.trans h) hk
    upcRange := fun _ => by rw [startItem_upc, startItem_prog, hu]; exact hlt
    waitRange := ?waitRange
    waiting := ?waiting
    outstanding := ?outstanding
    held := by simpa using hi.held
    istateInit := ?istateInit
    istateReady := ?istateReady
    fresh := fun _ h => absurd ((startItem_upc item s).symm.trans h) hu0
    initFresh := fun _ h => absurd ((startItem_upc item s).symm.trans h) hu0
    initOpens := ?initOpens
    readyOpen := by simpa using hi.readyOpen
    closing := ?closing
    closedReleased := by simpa using hi.closedReleased }
  case waitRange =>
    rw [startItem_params]
    cases item with
    | group ops => rw [startItem_group_wait, hw]; exact Nat.two_pow_pos _
    | wait n => exact Nat.mod_lt _ (Nat.two_pow_pos _)
  case waiting =>
    intro h
    cases item with
    | group ops => rw [startItem_group_wait, hw] at h; cases h
    | wait n =>
      exact ⟨hp, by rw [startItem_fault]; exact hf, n, hcur, Nat.le_of_eq (startItem_wait_count hi.params hmem)⟩
  case outstanding =>
    intro p h
    cases item with
    | wait n => rw [startItem_wait_pend, no_pend] at h; cases h
    | group ops =>
      rw [startItem_group_pend, no_pend, Bool.false_or] at h
      refine ⟨ops, hcur, ?_⟩
      rw [startItem_group_txn]
      obtain ⟨op, hop⟩ := Option.isSome_iff_exists.1 h
      rw [hop, Option.getD_some]
  case istateInit =>
    intro h
    rw [startItem_mode] at h
    have hkk : s.pk = .init := hi.pk_of_init h
    rw [startItem_istate, if_pos hkk, startItem_upc, hu, Nat.add_sub_cancel]
  case istateReady =>
    intro h
    rw [startItem_mode] at h
    have hkk : s.pk ≠ .init := fun e => absurd ((hi.mode_of_init e).symm.trans h) (by decide)
    rw [startItem_istate, if_neg hkk]
    exact hi.istateReady h
  case initOpens =>
    intro h _ p
    rw [startItem_mode] at h
    rw [startItem_opened, startItem_fault]
    by_cases h0 : s.upc = 0#7
    · right; right
      have hkk : s.pk = .init := hi.pk_of_init h
      rw [h0, prog, hkk] at hitem
      cases (initProg_first _ _ _).symm.trans hitem
      refine ⟨by rw [startItem_upc, h0]; rfl, ?_⟩
      rw [startItem_group_pend, Pins.get_const]
      simp
    · obtain ho | hff | ⟨-, hpp⟩ := hi.initOpens h h0 p
      · exact .inl ho
      · exact .inr (.inl hff)
      · rw [no_pend] at hpp; cases hpp
  case closing =>
    intro h p ho
    rw [startItem_pk] at h
    rw [startItem_opened] at ho
    rw [startItem_hCmask]
    obtain ⟨hc, -⟩ := hi.closing h p ho
    refine ⟨hc, .inr ?_⟩
    rw [prog, h] at hitem
    obtain ⟨-, -, rfl⟩ := closeProg_cases hitem
    rw [startItem_group_pend, Pins.get_ofFn, hc]
    simp

theorem advance_inv {s t : State} (hi : BlockInv s) (hk : s.pk ≠ .none) (hp : s.pend = 0#6) (hw : s.wait = 0)
    (h : advance s = .next t) : BlockInv t := by
  obtain ⟨hf, rfl⟩ | ⟨hf, hu, rfl⟩ | ⟨hf, item, hitem, rfl⟩ := advance_cases h
  · rw [← hf]; exact finish_inv hi hk hp hw (.inl hf)
  · rw [← hf]; exact finish_inv hi hk hp hw (.inr hu)
  · exact startItem_inv hi hk hp hw hf hitem

theorem phase2_inv {s t : State} (hi : BlockInv s) (h : phase2 s = .next t) : BlockInv t := by
  obtain ⟨-, rfl⟩ | ⟨-, -, rfl⟩ | ⟨hk, -, -, rfl⟩ | ⟨hk, hp, -, hadv⟩ := phase2_cases h
  · exact hi
  · exact hi
  · exact hi.setWait (Nat.sub_le _ _) hk
  · exact advance_inv (hi.setWait (Nat.zero_le _) hk) hk hp rfl hadv

/-! ### Phase 3 -/

theorem raiseError_inv (k : RspStatus) {s : State} (hi : BlockInv s) : BlockInv (raiseError k s) := { hi with }

theorem heldFits_of_decode {w : Word} {r : Instr} (h : decode w = .ok r) : heldFits (programKind r) w := by
  cases r with
  | cmd b st => exact ⟨b, st, .inl h⟩
  | data b st => exact ⟨b, st, .inr h⟩
  | nib v st => exact ⟨v, st, h⟩
  | close => exact h

/-- The load of a request in a mode that admits it keeps the invariant (R148). -/
theorem loadRequest_inv {r : Instr} {s : State} (hi : BlockInv s) (hk : s.pk = .none) (hw : r.wellFormed = true)
    (hm : s.mode = .ready ∨ (s.mode = .failed ∧ r = .close)) : BlockInv (loadRequest r s) := by
  have not_init : s.mode ≠ .init := by obtain h | ⟨h, -⟩ := hm <;> simp [h]
  have hupc : (loadRequest r s).upc = 0#7 := loadRequest_upc r s
  have not_closed : s.mode ≠ .closed := by obtain h | ⟨h, -⟩ := hm <;> simp [h]
  have running : (loadRequest r s).pk ≠ .none := by rw [loadRequest_pk]; exact programKind_ne_none r
  refine {
    params := by simpa using hi.params
    modePk := ?modePk
    idle := fun h => absurd h running
    upcRange := fun _ => by rw [hupc]; exact Nat.zero_le _
    waitRange := by simpa using hi.waitRange
    waiting := fun h => by rw [loadRequest_wait, (hi.idle hk).2] at h; cases h
    outstanding := fun p h => by rw [loadRequest_pend, hi.pend_of_idle hk] at h; cases h
    held := by rw [loadRequest_pk, loadRequest_hWord]; exact heldFits_of_decode (decodeOfEncodedRequest r hw)
    istateInit := fun h => absurd ((loadRequest_mode r s).symm.trans h) not_init
    istateReady := by simpa using hi.istateReady
    fresh := fun _ _ => loadRequest_fault r s
    initFresh := fun h => absurd ((loadRequest_mode r s).symm.trans h) not_init
    initOpens := fun h => absurd ((loadRequest_mode r s).symm.trans h) not_init
    readyOpen := ?readyOpen
    closing := ?closing
    closedReleased := fun h => absurd ((loadRequest_mode r s).symm.trans h) not_closed }
  case modePk =>
    rw [loadRequest_mode, loadRequest_pk]
    obtain h | ⟨h, rfl⟩ := hm
    · rw [h]; exact decide_eq_true (programKind_ne_init r)
    · rw [h]; rfl
  case readyOpen =>
    rw [loadRequest_mode, loadRequest_opened]
    exact fun h _ => hi.readyOpen h (by rw [hk]; decide)
  case closing =>
    intro h p ho
    rw [loadRequest_pk, programKind_eq_close_iff] at h
    subst h
    exact ⟨ho, .inl hupc⟩

theorem phase3_inv {rq : Option Word} {m : Mode} {k : Pk} {s t : State} (hi : BlockInv s)
    (h : phase3 rq m k s = .next t) : BlockInv t := by
  obtain ⟨-, rfl⟩ | ⟨-, -, rfl⟩ | ⟨-, -, rfl⟩ | ⟨-, w, r, -, hd, hk, hm, rfl⟩ := phase3_outcomes h
  · exact hi
  · exact raiseError_inv .notReady hi
  · exact raiseError_inv .invalidValue hi
  · exact loadRequest_inv hi hk (wellFormed_of_decode hd) hm

/-! ### The whole tick -/

theorem beginTick_inv {s : State} (hi : BlockInv s) : BlockInv (beginTick s) := { hi with }

/-- A reset tick leads to the start of INIT, whatever the configuration inputs (R330). -/
theorem resetTick_inv (i : TickIn) {s : State} (hl : Config.legal s.params = true) : BlockInv (resetTick i s) where
  params := hl
  modePk := rfl
  idle h := by cases h
  upcRange _ := Nat.zero_le _
  waitRange := Nat.two_pow_pos _
  waiting h := by cases h
  outstanding p h := by rw [resetTick_pend, hasBit_zero] at h; cases h
  held := trivial
  istateInit _ := rfl
  istateReady h := by cases h
  fresh _ _ := rfl
  initFresh _ _ := rfl
  initOpens _ h := absurd rfl h
  readyOpen h := by cases h
  closing h := by cases h
  closedReleased h := by cases h

theorem tick_inv {i : TickIn} {s t : State} (hi : BlockInv s) (h : tick i s = .next t) : BlockInv t := by
  cases hr : i.rst with
  | true =>
    rw [tick_of_rst s hr] at h
    cases h
    exact resetTick_inv i hi.params
  | false =>
    obtain ⟨u, h2, h3⟩ := tick_cases hr h
    exact phase3_inv (phase2_inv (phase1_inv i.rsp (beginTick_inv hi)) h2) h3

theorem dropInput_inv {s : State} (hi : BlockInv s) : BlockInv (dropInput s) := by
  unfold dropInput
  split
  · exact { hi with }
  · exact { hi with }

/-- Settles O51: a step is a tick on the next inputs, and a tick keeps the invariant phase by phase. -/
theorem stepKeepsInvariant : Obligations.StepKeepsInvariant := by
  unfold Obligations.StepKeepsInvariant
  intro s t hi h
  exact tick_inv (dropInput_inv hi) h

/-- Phase 3 always answers: no request stops the machine. -/
theorem phase3_answers (rq : Option Word) (m : Mode) (k : Pk) (s : State) : ∃ t, phase3 rq m k s = .next t := by
  unfold phase3
  split
  · exact ⟨_, rfl⟩
  · split
    · exact ⟨_, rfl⟩
    · split
      · exact ⟨_, rfl⟩
      · split
        · exact ⟨_, rfl⟩
        · exact ⟨_, exec_eq_request _ s⟩

/-- From a state of the invariant every tick answers. -/
theorem BlockInv.tick_answers {s : State} (hi : BlockInv s) (i : TickIn) : ∃ t, tick i s = .next t := by
  cases hr : i.rst with
  | true => exact ⟨_, tick_of_rst s hr⟩
  | false =>
    obtain ⟨u, h2⟩ := hi.phases_answer i.rsp
    rw [tick_of_not_rst s hr, h2]
    exact phase3_answers i.rq s.mode s.pk u

/-- Settles O52: `upc` is in range, so phase 2 finds an item or the end, and no request stops the machine. -/
theorem invariantStateSteps : Obligations.InvariantStateSteps := by
  unfold Obligations.InvariantStateSteps
  intro s hi
  exact (dropInput_inv hi).tick_answers (nextInput s)

/-- The reset state is what a reset tick with the tie-off inputs leaves (R14, R49). -/
theorem reset_eq_resetTick :
    State.reset = resetTick { quiet with rst := true } { State.reset with history := [] } := rfl

/-- Settles O50: the reset state is what a reset tick leaves, and so it meets both. -/
theorem resetMeetsInvariant : Obligations.ResetMeetsInvariant := by
  unfold Obligations.ResetMeetsInvariant
  rw [reset_eq_resetTick]
  exact ⟨resetTick_inv _ (by decide), resetTick_agrees _ _⟩

end Sys2Proof.Machine
end

section
/-! What one tick does to the registers, said once per phase: what phases 2 and 3 keep, and the outcomes of phase 2. The
statements about one tick's registers and outputs follow from these. -/

namespace Sys2Proof.Machine

/-! ### Phase 2 in three outcomes, and what the phases keep -/

/-- Phase 2 holds its place, finishes the program, or starts the next item (R144, R146). -/
theorem phase2_outcomes {s t : State} (h : phase2 s = .next t) :
    ((s.pk = .none ∨ s.pend ≠ 0#6 ∨ 1 < s.wait) ∧ ∃ n, t = { s with wait := n }) ∨
    (s.pk ≠ .none ∧ s.pend = 0#6 ∧ (s.fault = true ∨ s.upc.toNat = (prog s).length) ∧
      t = finish s.fault { s with wait := 0 }) ∨
    (s.pk ≠ .none ∧ s.pend = 0#6 ∧ s.fault = false ∧
      ∃ item, (prog s)[s.upc.toNat]? = some item ∧ t = startItem item { s with wait := 0 }) := by
  obtain ⟨hk, rfl⟩ | ⟨-, hp, rfl⟩ | ⟨-, -, hw, rfl⟩ | ⟨hk, hp, -, hadv⟩ := phase2_cases h
  · exact .inl ⟨.inl hk, _, rfl⟩
  · exact .inl ⟨.inr (.inl hp), _, rfl⟩
  · exact .inl ⟨.inr (.inr hw), _, rfl⟩
  · obtain ⟨hf, rfl⟩ | ⟨hf, hu, rfl⟩ | ⟨hf, item, hitem, rfl⟩ := advance_cases hadv
    · exact .inr (.inl ⟨hk, hp, .inl hf, congrArg (finish · _) hf.symm⟩)
    · exact .inr (.inl ⟨hk, hp, .inr hu, congrArg (finish · _) hf.symm⟩)
    · exact .inr (.inr ⟨hk, hp, hf, item, hitem, rfl⟩)

/-- What a wait, a finish and an item's start leave unchanged, phase 2 leaves unchanged. -/
theorem phase2_keeps {α : Type} (f : State → α) (hwait : ∀ n s, f { s with wait := n } = f s)
    (hfinish : ∀ b s, f (finish b s) = f s) (hstart : ∀ item s, f (startItem item s) = f s) {s t : State}
    (h : phase2 s = .next t) : f t = f s := by
  obtain ⟨-, n, rfl⟩ | ⟨-, -, -, rfl⟩ | ⟨-, -, -, item, -, rfl⟩ := phase2_outcomes h
  · exact hwait n s
  · exact (hfinish _ _).trans (hwait 0 s)
  · exact (hstart _ _).trans (hwait 0 s)

/-- What an error and a load leave unchanged, phase 3 leaves unchanged. -/
theorem phase3_keeps {α : Type} (f : State → α) (herror : ∀ k s, f (raiseError k s) = f s)
    (hload : ∀ r s, f (loadRequest r s) = f s) {rq : Option Word} {m : Mode} {k : Pk} {s t : State}
    (h : phase3 rq m k s = .next t) : f t = f s := by
  obtain ⟨-, rfl⟩ | ⟨-, -, rfl⟩ | ⟨-, -, rfl⟩ | ⟨-, w, r, -, -, -, -, rfl⟩ := phase3_outcomes h
  · rfl
  · exact herror _ s
  · exact herror _ s
  · exact hload r s

/-- While a program runs, phase 3 at most answers NotReady, and that only in INIT (R147, R297). -/
theorem phase3_running {rq : Option Word} {m : Mode} {k : Pk} {s t : State} (hk : k ≠ .none)
    (h : phase3 rq m k s = .next t) : t = s ∨ (m = .init ∧ t = raiseError .notReady s) := by
  obtain ⟨-, rfl⟩ | ⟨-, hq, rfl⟩ | ⟨-, hk0, -⟩ | ⟨hk0, -⟩ := phase3_outcomes h
  · exact .inl rfl
  · exact .inr ⟨((rqReady_eq_true_iff m k).1 hq).resolve_left hk, rfl⟩
  · exact absurd hk0 hk
  · exact absurd hk0 hk

theorem phase2_now {s t : State} (h : phase2 s = .next t) : t.now = s.now :=
  phase2_keeps State.now (fun _ _ => rfl) finish_now startItem_now h

theorem phase3_now {rq : Option Word} {m : Mode} {k : Pk} {s t : State} (h : phase3 rq m k s = .next t) : t.now = s.now :=
  phase3_keeps State.now (fun _ _ => rfl) loadRequest_now h

/-- A tick that is no reset tick has the next number. -/
theorem tick_now {i : TickIn} {s t : State} (hr : i.rst = false) (h : tick i s = .next t) : t.now = s.now + 1 := by
  obtain ⟨u, h2, h3⟩ := tick_cases hr h
  rw [phase3_now h3, phase2_now h2, phase1_now, beginTick_now]

/-- A phase 2 that no program, or a wait, or a group holds leaves `pk` as it is, and an item's start does. -/
theorem phase2_pk {s t : State} (h : phase2 s = .next t) : t.pk = s.pk ∨ t.pk = .none := by
  obtain ⟨-, n, rfl⟩ | ⟨-, -, -, rfl⟩ | ⟨-, -, -, item, -, rfl⟩ := phase2_outcomes h
  · exact .inl rfl
  · exact .inr (finish_pk _ _)
  · exact .inl (startItem_pk _ _)

/-! ### The levels of the status (R41, R42) and `rq_ready` (R147) -/

/-- The outputs that are fixed when the tick begins. -/
def steadyOut (s : State) : Bool × BitVec 8 × Bool × Bool × Bool :=
  (s.out.rqReady, s.out.status, s.out.ready, s.out.failed, s.out.closed)

theorem finish_steadyOut (f : Bool) (s : State) : steadyOut (finish f s) = steadyOut s := by
  unfold steadyOut
  rw [finish_out]
  cases s.pk <;> cases f <;> rfl

theorem startItem_steadyOut (item : Item) (s : State) : steadyOut (startItem item s) = steadyOut s := by
  cases item with
  | wait n => rfl
  | group ops => simp [steadyOut, startItem, startGroup_out, startGroup_levels]

theorem tick_steadyOut {i : TickIn} {s t : State} (hr : i.rst = false) (h : tick i s = .next t) :
    steadyOut t = (rqReady s.mode s.pk, statusVec s, readyLevel s, failedLevel s, closedLevel s) := by
  obtain ⟨u, h2, h3⟩ := tick_cases hr h
  calc steadyOut t
    _ = steadyOut u := phase3_keeps steadyOut (fun _ _ => rfl) (fun r _ => by rw [steadyOut, loadRequest_out]; rfl) h3
    _ = steadyOut (phase1 i.rsp (beginTick s)) :=
      phase2_keeps steadyOut (fun _ _ => rfl) finish_steadyOut startItem_steadyOut h2
    _ = steadyOut (beginTick s) := by rw [steadyOut, phase1_out]; rfl

/-- Settles O23: the outputs fixed at the start of the tick are kept by its phases. -/
theorem statusOutputs : Obligations.StatusOutputs := by
  unfold Obligations.StatusOutputs
  intro s t i hr h
  have hs := tick_steadyOut hr h
  simp only [steadyOut, Prod.mk.injEq] at hs
  exact hs.2

theorem tick_rqReady {i : TickIn} {s t : State} (hr : i.rst = false) (h : tick i s = .next t) :
    t.out.rqReady = rqReady s.mode s.pk := congrArg Prod.fst (tick_steadyOut hr h)

/-- Settles O17: `rq_ready` is fixed when the tick begins, and phase 3 drops a word where it is 0. -/
theorem wordTakenOnlyWhenReady : Obligations.WordTakenOnlyWhenReady := by
  unfold Obligations.WordTakenOnlyWhenReady
  intro s t i h
  obtain hr | hr := Bool.eq_false_or_eq_true i.rst
  · rw [tick_of_rst s hr] at h
    cases h
    exact ⟨by simp [resetOut, hr], fun _ => tick_of_rst s (i := { i with rq := none }) hr⟩
  · rw [tick_rqReady hr h]
    refine ⟨by simp [rqReady_eq_true_iff, hr], fun hq => ?_⟩
    obtain ⟨u, h2, h3⟩ := tick_cases hr h
    rw [tick_of_not_rst s (i := { i with rq := none }) hr, h2]
    obtain ⟨-, rfl⟩ | ⟨-, hq', -⟩ | ⟨-, hk, -⟩ | ⟨hk, -⟩ := phase3_outcomes h3
    · rfl
    · rw [hq] at hq'; cases hq'
    · rw [hk, rqReady_of_idle] at hq; cases hq
    · rw [hk, rqReady_of_idle] at hq; cases hq

/-! ### The registers a tick writes -/

/-- Settles O18: phases 1 and 2 keep `h_word`, and phase 3 writes it only by the load of the word it takes. -/
theorem heldWordIsLastExecuted : Obligations.HeldWordIsLastExecuted := by
  unfold Obligations.HeldWordIsLastExecuted
  intro s t i hi hr h
  refine ⟨fun w r hw hd hk hm => ?taken, fun hne => ?changed⟩
  case taken =>
    have hm' : s.mode = .ready ∨ s.mode = .failed := hm.imp id And.left
    rw [tick_of_not_rst s hr, idle_phases hk (hi.idle hk).1, hw, hk] at h
    have h3 : phase3 (some w) s.mode .none (beginTick s) = .next t := h
    rw [phase3_decoded _ (rqReady_of_idle _) hm' hd,
      exec_loads (s := beginTick s) hk (wellFormed_of_decode hd) hm] at h3
    cases h3
    exact ⟨by rw [loadRequest_hWord, encode_of_decode hd], by rw [loadRequest_pk]; exact programKind_ne_none r⟩
  case changed =>
    obtain ⟨u, h2, h3⟩ := tick_cases hr h
    have hu : u.hWord = s.hWord :=
      (phase2_keeps State.hWord (fun _ _ => rfl) finish_hWord startItem_hWord h2).trans (phase1_hWord _ _)
    obtain ⟨-, rfl⟩ | ⟨-, -, rfl⟩ | ⟨-, -, rfl⟩ | ⟨hk, w, r, hw, hd, -, hm, rfl⟩ := phase3_outcomes h3
    · exact absurd hu hne
    · exact absurd hu hne
    · exact absurd hu hne
    · rw [idle_phases hk (hi.idle hk).1] at h2
      cases h2
      rw [loadRequest_hWord, encode_of_decode hd]
      exact ⟨hk, hw, r, hd, hm⟩

/-- Settles O27: phase 1 changes a channel's record only where it answers (R76), and phases 2 and 3 change none. -/
theorem pinRecordChangesOnlyAtCompletion : Obligations.PinRecordChangesOnlyAtCompletion := by
  unfold Obligations.PinRecordChangesOnlyAtCompletion
  intro s t i p hr h hp
  obtain ⟨u, h2, h3⟩ := tick_cases hr h
  have ha : answer i.rsp (beginTick s) p = none := by
    unfold answer
    obtain hp | hp := hp
    · rw [beginTick_pend, hp]; rfl
    · rw [hp, ite_self]
  constructor
  · rw [phase3_keeps State.lvl (fun _ _ => rfl) loadRequest_lvl h3,
      phase2_keeps State.lvl (fun _ _ => rfl) finish_lvl startItem_lvl h2, phase1_lvl, ha, beginTick_lvl]
  · rw [phase3_keeps State.opened (fun _ _ => rfl) loadRequest_opened h3,
      phase2_keeps State.opened (fun _ _ => rfl) finish_opened startItem_opened h2, phase1_opened, ha, beginTick_opened]

/-- Phase 2 counts `upc` on, or leaves it. -/
theorem phase2_upc {s t : State} (h : phase2 s = .next t) : t.upc = s.upc ∨ (s.pk ≠ .none ∧ t.upc = s.upc + 1#7) := by
  obtain ⟨-, n, rfl⟩ | ⟨-, -, -, rfl⟩ | ⟨hk, -, -, item, -, rfl⟩ := phase2_outcomes h
  · exact .inl rfl
  · exact .inl (finish_upc _ _)
  · exact .inr ⟨hk, startItem_upc _ _⟩

/-- Phase 2 writes `istate` while INIT runs only. -/
theorem phase2_istate {s t : State} (hk : s.pk ≠ .init) (h : phase2 s = .next t) : t.istate = s.istate := by
  obtain ⟨-, n, rfl⟩ | ⟨-, -, -, rfl⟩ | ⟨-, -, -, item, -, rfl⟩ := phase2_outcomes h
  · rfl
  · rw [finish_istate]
    cases e : s.pk
    case init => exact absurd e hk
    all_goals rfl
  · rw [startItem_istate, if_neg hk]

/-- Settles O32: an item's start counts `upc` on, a load clears it, and `istate` is the sequencer's in INIT. -/
theorem upcAndIStateWrites : Obligations.UpcAndIStateWrites := by
  unfold Obligations.UpcAndIStateWrites
  intro s t i hr h
  obtain ⟨u, h2, h3⟩ := tick_cases hr h
  refine ⟨?params, ?upc, fun hk => ?istate⟩
  case params =>
    rw [phase3_keeps State.params (fun _ _ => rfl) loadRequest_params h3,
      phase2_keeps State.params (fun _ _ => rfl) finish_params startItem_params h2, phase1_params, beginTick_params]
  case upc =>
    have hu : u.upc = s.upc ∨ (s.pk ≠ .none ∧ u.upc = s.upc + 1#7) := by simpa using phase2_upc h2
    obtain ⟨-, rfl⟩ | ⟨-, -, rfl⟩ | ⟨-, -, rfl⟩ | ⟨hk, w, r, -, -, -, -, rfl⟩ := phase3_outcomes h3
    · exact hu.imp id .inl
    · exact hu.imp id .inl
    · exact hu.imp id .inl
    · exact .inr (.inr ⟨hk, by rw [loadRequest_pk]; exact programKind_ne_none r, loadRequest_upc r u⟩)
  case istate =>
    rw [phase3_keeps State.istate (fun _ _ => rfl) loadRequest_istate h3, phase2_istate (by simpa using hk) h2,
      phase1_istate, beginTick_istate]

/-! ### Phase 2 on a program that may go on -/

theorem setWait_self {s : State} (h : s.wait = 0) : { s with wait := 0 } = s := by
  cases s; cases h; rfl

/-- With nothing outstanding and no wait left, phase 2 goes on (R144). -/
theorem phase2_advance {s : State} (hk : s.pk ≠ .none) (hp : s.pend = 0#6) (hw : s.wait ≤ 1) :
    phase2 s = advance { s with wait := 0 } := by
  have h0 : s.wait - 1 = 0 := by omega
  rw [phase2, if_neg hk, if_neg (not_not_intro hp), if_neg (by omega), h0]

/-- A wait of more than one tick is counted down (R143). -/
theorem phase2_wait {s : State} (hk : s.pk ≠ .none) (hp : s.pend = 0#6) (hw : 1 < s.wait) :
    phase2 s = .next { s with wait := s.wait - 1 } := by
  rw [phase2, if_neg hk, if_neg (not_not_intro hp), if_pos (by omega)]

/-- Where no fault is latched and an item is left, going on is its start. -/
theorem advance_starts {s : State} {item : Item} (hf : s.fault = false) (h : (prog s)[s.upc.toNat]? = some item) :
    advance s = .next (startItem item s) := by
  have hlt := (List.getElem?_eq_some_iff.1 h).1
  rw [advance, hf, if_neg (by decide), if_neg (by omega), h]

/-- Where a fault is latched or no item is left, going on is the finish (R146). -/
theorem advance_finishes {s : State} (h : s.fault = true ∨ s.upc.toNat = (prog s).length) :
    advance s = .next (finish s.fault s) := by
  unfold advance
  cases hf : s.fault with
  | true => rfl
  | false =>
    have hu : s.upc.toNat = (prog s).length := h.resolve_left (by simp [hf])
    rw [if_neg (by decide), if_pos hu]

/-- Picking the channels that have a value and making an event of each is a filter and then a map. -/
theorem filterMap_map_eq_map_filter {α β γ : Type} (f : α → Option β) (g : α → β → γ) (d : β) (l : List α) :
    (l.filterMap fun a => (f a).map (g a)) = (l.filter fun a => (f a).isSome).map fun a => g a ((f a).getD d) := by
  induction l with
  | nil => rfl
  | cons a l ih => cases h : f a <;> simp [h, ih]

theorem groupEvents_eq (t : Nat) (ops : Pins (Option PinOp)) : groupEvents t ops =
    (Chan.all.filter fun p => (ops.get p).isSome).map fun p => Event.issue t p ((ops.get p).getD .openPin) :=
  filterMap_map_eq_map_filter ops.get (fun p op => Event.issue t p op) .openPin Chan.all

theorem answer_isSome (rsp : Pins (Option PinStatus)) (s : State) (p : Chan) :
    (answer rsp s p).isSome = (hasBit s.pend p && (rsp.get p).isSome) := by
  unfold answer
  cases hasBit s.pend p <;> rfl

theorem completions_eq (rsp : Pins (Option PinStatus)) (s : State) : completions rsp s =
    (Chan.all.filter fun p => hasBit s.pend p && (rsp.get p).isSome).map
      fun p => Event.complete s.now p ((rsp.get p).getD .ok) := by
  have picked := filterMap_map_eq_map_filter (answer rsp s) (fun p st => Event.complete s.now p st) .ok Chan.all
  simp only [answer_isSome] at picked
  rw [completions, picked]
  refine List.map_congr_left fun p hp => ?_
  have hb : hasBit s.pend p = true := (Bool.and_eq_true_iff.1 (List.mem_filter.1 hp).2).1
  rw [answer, if_pos hb]

/-- Settles O19: a load leaves everything clear, so the next tick goes on at once; and any tick whose phase 1 completes
what was started goes on with the item `upc` names. -/
theorem loadedProgramStartsNextTick : Obligations.LoadedProgramStartsNextTick := by
  unfold Obligations.LoadedProgramStartsNextTick
  refine ⟨fun s t r hi hk he ht => ?load, fun s u i item hr hk hu hp hw hf hitem => ?start⟩
  case load =>
    obtain ⟨rfl, -⟩ := exec_loaded hk he ht
    obtain ⟨hp, hw⟩ := hi.idle hk
    refine ⟨loadRequest_upc r s, loadRequest_fault r s, by rw [loadRequest_wait, hw], by rw [loadRequest_pend, hp],
      loadRequest_history r s, fun e => by rw [e]; rfl, fun i item hr hrq hitem => ?_⟩
    have hw0 : (beginTick (loadRequest r s)).wait = 0 := by rw [beginTick_wait, loadRequest_wait, hw]
    have hp0 : (beginTick (loadRequest r s)).pend = 0#6 := by rw [beginTick_pend, loadRequest_pend, hp]
    have hf0 : (beginTick (loadRequest r s)).fault = false := by rw [beginTick_fault, loadRequest_fault]
    have hitem0 : (prog (beginTick (loadRequest r s)))[(beginTick (loadRequest r s)).upc.toNat]? = some item := by
      rw [beginTick_upc, loadRequest_upc]; exact hitem
    rw [tick_of_not_rst _ hr, phase1_idle hp0, phase2_advance (s := beginTick (loadRequest r s)) ht hp0 (by omega),
      setWait_self hw0, advance_starts hf0 hitem0, hrq]
    rfl
  case start =>
    have hk' : u.pk ≠ .none := by rw [hu, phase1_pk]; exact hk
    refine ⟨_, rfl, ?_, startItem_upc _ _, startItem_istate _ _, ?_⟩
    · rw [tick_of_not_rst s hr, ← hu, phase2_advance hk' hp hw, advance_starts (s := { u with wait := 0 }) hf hitem]
      rfl
    · cases item with
      | group ops =>
        refine ⟨startItem_group_wait _ _, fun p => ?_, ?_⟩
        · rw [startItem_group_pend, hp, hasBit_zero, Bool.false_or]
        · rw [startItem_history, ← groupEvents_eq]
      | wait n =>
        refine ⟨fun hl => ?_, rfl, hp, ?_⟩
        · exact startItem_wait_count (s := { u with wait := 0 }) hl (List.mem_of_getElem? hitem)
        · exact (startItem_history _ _).trans (List.append_nil _)

/-! ### The finish -/

/-- Settles O33: phase 2 goes on and finds the fault or the end, and there is no word for phase 3. -/
theorem finishByProgram : Obligations.FinishByProgram := by
  unfold Obligations.FinishByProgram
  intro s u i _ hr hrq hk hu hp hw hend
  have hpk : u.pk = s.pk := by rw [hu, phase1_pk, beginTick_pk]
  have htick : tick i s = .next (finish u.fault { u with wait := 0 }) := by
    rw [tick_of_not_rst s hr, ← hu, phase2_advance (by rw [hpk]; exact hk) hp hw,
      advance_finishes (s := { u with wait := 0 }) hend, hrq]
    rfl
  intro st
  rw [htick]
  refine ⟨?send, fun h => ?close, fun h hf => ?ready, fun h hf => ?failed⟩
  case send => rintro (h | h) <;> rw [finish, hpk, h] <;> rfl
  case close => rw [finish, hpk, h]; rfl
  case ready => rw [finish, hpk, h, hf]; rfl
  case failed => rw [finish, hpk, h, hf]; rfl

/-! ### Pin transactions -/

/-- Settles O24: phase 1's table of a channel (R76), row by row. -/
theorem completionTable : Obligations.CompletionTable := by
  unfold Obligations.CompletionTable
  intro s rsp p st hp hrsp
  have ha : answer rsp s p = some st := by rw [answer, if_pos hp, hrsp]
  refine ⟨by rw [phase1_pend, hrsp]; simp, ?recorded, fun hst => ?latched, ?table⟩
  case recorded =>
    rw [phase1_history, completions]
    exact List.mem_append_right _ (List.mem_filterMap.2 ⟨p, Chan.mem_all p, by rw [ha]; rfl⟩)
  case latched =>
    rw [phase1_fault, Bool.or_eq_true, List.any_eq_true]
    exact .inr ⟨p, Chan.mem_all p, decide_eq_true (by rw [ha, hst])⟩
  case table =>
    rw [phase1_opened, phase1_lvl, ha]
    cases s.txn.get p with
    | openPin => cases st <;> exact ⟨rfl, rfl⟩
    | write v => cases st <;> cases v <;> exact ⟨rfl, rfl⟩
    | closePin => cases st <;> exact ⟨rfl, rfl⟩

/-- Settles O28, by the recorded level and the level in flight. -/
theorem writeInFlightIsRace : Obligations.WriteInFlightIsRace := by
  unfold Obligations.WriteInFlightIsRace
  intro s p old new hl hp ht b
  unfold possibleLevel
  rw [hl, hp, ht]
  cases old <;> cases new <;> cases b <;> decide

/-! ### The status vector and the reset tick -/

/-- The fields of R41's vector lie side by side. -/
theorem statusVec_fields (i : BitVec 4) (b : Bool) (m : BitVec 2) :
    (i ++ 0#1 ++ BitVec.ofBool b ++ m).extractLsb' 0 2 = m ∧ (i ++ 0#1 ++ BitVec.ofBool b ++ m).getLsbD 2 = b ∧
      (i ++ 0#1 ++ BitVec.ofBool b ++ m).getLsbD 3 = false ∧ (i ++ 0#1 ++ BitVec.ofBool b ++ m).extractLsb' 4 4 = i := by
  revert i b m
  decide

/-- Settles O45: the vector's fields, and the decided levels. -/
theorem statusFields : Obligations.StatusFields := by
  unfold Obligations.StatusFields
  intro s
  obtain ⟨hmode, hbusy, hzero, histate⟩ := statusVec_fields s.istate.code (busy s) s.mode.code
  exact ⟨hmode, (Bool.eq_iff_iff.1 hbusy).trans decide_eq_true_iff, hzero, histate, decide_eq_true_iff, decide_eq_true_iff,
    decide_eq_true_iff, rfl⟩

/-- Settles O48: the reset tick is one record of reset values. -/
theorem resetTickLeavesResetValues : Obligations.ResetTickLeavesResetValues := by
  unfold Obligations.ResetTickLeavesResetValues
  intro s i hr
  rw [tick_of_rst s hr]
  rfl

end Sys2Proof.Machine
end

section
/-! The events of one tick (R149, R296): what each phase records, and the outputs that go with it. -/

namespace Sys2Proof.Machine

/-! ### The events of phases 2 and 3 -/

theorem groupEvents_noOps (t : Nat) : groupEvents t noOps = [] := rfl

/-- Phase 2 records the issues of a group, which may be none, or the one event of a finish. -/
theorem phase2_events {s t : State} (h : phase2 s = .next t) : ∃ mid, Appends s t mid ∧
    ((∃ ops, mid = groupEvents s.now ops) ∨ mid = [.ready s.now] ∨ mid = [.initError s.now .pinFault] ∨
      (s.pk ≠ .none ∧ s.pk ≠ .init ∧ (mid = [.response s.now .ok] ∨ mid = [.response s.now .pinFault]))) := by
  obtain ⟨-, n, rfl⟩ | ⟨hk, -, -, rfl⟩ | ⟨-, -, -, item, -, rfl⟩ := phase2_outcomes h
  · exact ⟨[], (List.append_nil _).symm, .inl ⟨noOps, rfl⟩⟩
  · refine ⟨_, finish_history _ _, ?_⟩
    cases e : s.pk with
    | none => exact absurd e hk
    | init => cases s.fault with
      | false => exact .inr (.inl rfl)
      | true => exact .inr (.inr (.inl rfl))
    | nib => exact .inr (.inr (.inr ⟨by decide, by decide, by cases s.fault <;> simp⟩))
    | frame => exact .inr (.inr (.inr ⟨by decide, by decide, by cases s.fault <;> simp⟩))
    | close => exact .inr (.inr (.inr ⟨by decide, by decide, by cases s.fault <;> simp⟩))
  · refine ⟨_, startItem_history _ _, .inl ?_⟩
    cases item with
    | group ops => exact ⟨ops, rfl⟩
    | wait n => exact ⟨noOps, rfl⟩

/-- Phase 3 records at most the Response of a rejected word, and none while a program other than INIT runs. -/
theorem phase3_events {rq : Option Word} {m : Mode} {k : Pk} {s t : State} (h : phase3 rq m k s = .next t) :
    ∃ fin, Appends s t fin ∧ (fin = [] ∨ fin = [.response s.now .notReady] ∨ fin = [.response s.now .invalidValue]) ∧
      (k ≠ .none → m ≠ .init → fin = []) := by
  obtain ⟨-, rfl⟩ | ⟨-, hq, rfl⟩ | ⟨-, hk, rfl⟩ | ⟨-, w, r, -, -, -, -, rfl⟩ := phase3_outcomes h
  · exact ⟨[], .refl _, .inl rfl, fun _ _ => rfl⟩
  · refine ⟨_, raiseError_history _ s, .inr (.inl rfl), fun hk hm => ?_⟩
    exact absurd ((rqReady_eq_true_iff m k).1 hq) (not_or.2 ⟨hk, hm⟩)
  · exact ⟨_, raiseError_history _ s, .inr (.inr rfl), fun h' => absurd hk h'⟩
  · exact ⟨[], by rw [Appends, loadRequest_history, List.append_nil], .inl rfl, fun _ _ => rfl⟩

/-- Settles O21: each phase appends its events, and a finish's Response comes in a tick that takes no word. -/
theorem sameTickEventOrder : Obligations.SameTickEventOrder := by
  unfold Obligations.SameTickEventOrder
  intro s t i hi hr h
  obtain ⟨u, h2, h3⟩ := tick_cases hr h
  have a1 : Appends s (phase1 i.rsp (beginTick s)) (completions i.rsp (beginTick s)) := phase1_history i.rsp (beginTick s)
  obtain ⟨mid, a2, hmid⟩ := phase2_events h2
  obtain ⟨fin, a3, hfin, hnone⟩ := phase3_events h3
  have hu : u.now = t.now := (phase3_now h3).symm
  have hs : (phase1 i.rsp (beginTick s)).now = t.now := by rw [← hu, phase2_now h2]
  rw [hu] at hfin
  rw [hs, phase1_pk, beginTick_pk] at hmid
  refine ⟨_, mid, fin, (a1.trans a2).trans a3, ?_, ?_, hfin⟩
  · rw [completions_eq, ← hs, phase1_now, beginTick_pend]
  · obtain ⟨ops, e⟩ | e | e | ⟨hk, hk', e⟩ := hmid
    · exact .inl ⟨ops, by rw [e, groupEvents_eq]⟩
    · exact .inr (.inl e)
    · exact .inr (.inr (.inl e))
    · have hm : s.mode ≠ .init := fun hm => hk' (hi.pk_of_init hm)
      exact .inr (.inr (.inr ⟨e, hnone hk hm⟩))

/-! ### The pulses (R296) -/

/-- The pulse outputs of a state are those of the events. -/
structure PulsesTell (t : State) (evs : List Event) : Prop where
  rsp : ∀ st, t.out.rsp = some st ↔ Event.response t.now st ∈ evs
  ready : t.out.evReady = true ↔ Event.ready t.now ∈ evs
  initError : t.out.evInitError = true ↔ Event.initError t.now .pinFault ∈ evs
  count : responses evs = if t.out.rsp.isSome = true then 1 else 0

/-- A pin event drives no pulse. -/
def isPinEvent : Event → Prop
  | .issue _ _ _ => True
  | .complete _ _ _ => True
  | _ => False

theorem isPinEvent_completions (rsp : Pins (Option PinStatus)) (s : State) : ∀ ev ∈ completions rsp s, isPinEvent ev := by
  intro ev h
  obtain ⟨p, st, rfl, -⟩ := mem_completions h
  trivial

theorem isPinEvent_groupEvents (t : Nat) (ops : Pins (Option PinOp)) : ∀ ev ∈ groupEvents t ops, isPinEvent ev := by
  intro ev h
  obtain ⟨p, op, rfl, -⟩ := mem_groupEvents.1 h
  trivial

/-- More pin events leave the pulses told. -/
theorem PulsesTell.append_pinEvents {s t : State} {evs evs' : List Event} (h : PulsesTell s evs) (hnow : t.now = s.now)
    (hrsp : t.out.rsp = s.out.rsp) (hready : t.out.evReady = s.out.evReady)
    (hinit : t.out.evInitError = s.out.evInitError) (hpin : ∀ ev ∈ evs', isPinEvent ev) : PulsesTell t (evs ++ evs') := by
  have absent : ∀ ev, ¬ isPinEvent ev → (ev ∈ evs ++ evs' ↔ ev ∈ evs) := fun ev hev =>
    ⟨fun h => (List.mem_append.1 h).resolve_right fun h' => hev (hpin ev h'), List.mem_append_left _⟩
  have uncounted : responses evs' = 0 := by
    rw [responses, List.countP_eq_zero]
    intro ev hev
    have hp := hpin ev hev
    cases ev <;> simp_all [isPinEvent]
  constructor
  · intro st; rw [hnow, hrsp, absent _ id]; exact h.rsp st
  · rw [hnow, hready, absent _ id]; exact h.ready
  · rw [hnow, hinit, absent _ id]; exact h.initError
  · rw [responses_append, uncounted, hrsp]; exact h.count

/-- A first Response drives its pulse. -/
theorem PulsesTell.after_respond {s t : State} {evs : List Event} (h : PulsesTell s evs) (st : RspStatus) (hnone : s.out.rsp = none)
    (hnow : t.now = s.now) (hout : t.out = { s.out with rsp := some st }) :
    PulsesTell t (evs ++ [.response s.now st]) := by
  have fresh : ∀ st', Event.response s.now st' ∉ evs := fun st' hm => by
    have := (h.rsp st').2 hm
    rw [hnone] at this
    cases this
  have count := h.count
  rw [hnone] at count
  constructor
  · intro st'
    rw [hnow, hout]
    simp [fresh, eq_comm]
  · rw [hnow, hout]; simpa using h.ready
  · rw [hnow, hout]; simpa using h.initError
  · rw [responses_append, count, hout]; rfl

/-- The finish drives the pulse of its event. -/
theorem PulsesTell.after_finish {s : State} {evs : List Event} (h : PulsesTell s evs) (f : Bool) (hnone : s.out.rsp = none) :
    ∃ mid, Appends s (finish f s) mid ∧ PulsesTell (finish f s) (evs ++ mid) := by
  refine ⟨_, finish_history f s, ?_⟩
  have hnow := finish_now f s
  have hout := finish_out f s
  have ended : ∀ st, (finish f s).out = { s.out with rsp := some st } →
      PulsesTell (finish f s) (evs ++ [.response s.now st]) := fun st e => h.after_respond st hnone hnow e
  cases hk : s.pk with
  | none =>
    rw [hk] at hout
    exact h.append_pinEvents hnow (by rw [hout]) (by rw [hout]) (by rw [hout]) (fun ev hev => by cases hev)
  | init =>
    rw [hk] at hout
    have uncounted : responses [Event.ready s.now] = 0 ∧ responses [Event.initError s.now .pinFault] = 0 := ⟨rfl, rfl⟩
    cases f <;> constructor <;> simp [hout, h.rsp, h.ready, h.initError, h.count, uncounted]
  | nib => rw [hk] at hout; cases f <;> exact ended _ hout
  | frame => rw [hk] at hout; cases f <;> exact ended _ hout
  | close => rw [hk] at hout; cases f <;> exact ended _ hout

/-- An item's start drives no pulse. -/
theorem startItem_pulses (item : Item) (s : State) : (startItem item s).out.rsp = s.out.rsp ∧
    (startItem item s).out.evReady = s.out.evReady ∧ (startItem item s).out.evInitError = s.out.evInitError := by
  cases item with
  | wait n => exact ⟨rfl, rfl, rfl⟩
  | group ops => simp [startItem, startGroup_out]

theorem PulsesTell.after_phase2 {s t : State} {evs : List Event} (h : PulsesTell s evs) (hnone : s.out.rsp = none)
    (h2 : phase2 s = .next t) : ∃ mid, Appends s t mid ∧ PulsesTell t (evs ++ mid) := by
  obtain ⟨-, n, rfl⟩ | ⟨-, -, -, rfl⟩ | ⟨-, -, -, item, -, rfl⟩ := phase2_outcomes h2
  · exact ⟨[], (List.append_nil _).symm, h.append_pinEvents rfl rfl rfl rfl (fun ev hev => by cases hev)⟩
  · exact PulsesTell.after_finish (s := { s with wait := 0 }) ⟨h.rsp, h.ready, h.initError, h.count⟩ s.fault hnone
  · obtain ⟨hrsp, hready, hinit⟩ := startItem_pulses item { s with wait := 0 }
    refine ⟨_, startItem_history _ _, h.append_pinEvents (startItem_now _ _) hrsp hready hinit ?_⟩
    cases item with
    | wait n => exact fun ev hev => by cases hev
    | group ops => exact isPinEvent_groupEvents _ ops

/-- Phase 2 answers only for a program that a word has loaded. -/
theorem phase2_rsp {s t : State} (hk : s.pk = .none ∨ s.pk = .init) (h : phase2 s = .next t) : t.out.rsp = s.out.rsp := by
  obtain ⟨-, n, rfl⟩ | ⟨-, -, -, rfl⟩ | ⟨-, -, -, item, -, rfl⟩ := phase2_outcomes h
  · rfl
  · rw [finish_out]
    obtain e | e := hk <;> rw [e]
    cases s.fault <;> rfl
  · exact (startItem_pulses item { s with wait := 0 }).1

/-- Settles O22: the tick starts with every pulse at 0, and each phase's events drive the pulses they name. -/
theorem pulseOutputs : Obligations.PulseOutputs := by
  unfold Obligations.PulseOutputs
  intro s t i hi hr h
  obtain ⟨u, h2, h3⟩ := tick_cases hr h
  have begun : PulsesTell (beginTick s) [] := by constructor <;> simp [responses]
  have out1 : (phase1 i.rsp (beginTick s)).out = (beginTick s).out := phase1_out i.rsp (beginTick s)
  have p1 : PulsesTell (phase1 i.rsp (beginTick s)) ([] ++ completions i.rsp (beginTick s)) :=
    begun.append_pinEvents (phase1_now _ _) (by rw [out1]) (by rw [out1]) (by rw [out1])
      (isPinEvent_completions i.rsp (beginTick s))
  have a1 : Appends s (phase1 i.rsp (beginTick s)) ([] ++ completions i.rsp (beginTick s)) :=
    phase1_history i.rsp (beginTick s)
  have none1 : (phase1 i.rsp (beginTick s)).out.rsp = none := by rw [out1, beginTick_out]
  obtain ⟨mid, a2, p2⟩ := p1.after_phase2 none1 h2
  have told : ∀ evs, Appends s t evs → PulsesTell t evs → ∃ evs, Appends s t evs ∧
      (∀ st, t.out.rsp = some st ↔ Event.response t.now st ∈ evs) ∧ (t.out.evReady = true ↔ Event.ready t.now ∈ evs) ∧
      (t.out.evInitError = true ↔ Event.initError t.now .pinFault ∈ evs) ∧ responses evs ≤ 1 := fun evs a p =>
    ⟨evs, a, p.rsp, p.ready, p.initError, by rw [p.count]; split <;> simp⟩
  have rejected : s.pk = .none ∨ s.mode = .init → ∀ st, t = raiseError st u → ∃ evs, Appends s t evs ∧ PulsesTell t evs := by
    rintro hq st rfl
    have hk : s.pk = .none ∨ s.pk = .init := hq.imp id hi.pk_of_init
    have none2 : u.out.rsp = none := by rw [phase2_rsp (by simpa using hk) h2, none1]
    exact ⟨_, (a1.trans a2).trans (raiseError_history st u), p2.after_respond st none2 rfl rfl⟩
  obtain ⟨-, rfl⟩ | ⟨-, hq, e⟩ | ⟨-, hk, e⟩ | ⟨-, w, r, -, -, -, -, rfl⟩ := phase3_outcomes h3
  · exact told _ (a1.trans a2) p2
  · obtain ⟨evs, a, p⟩ := rejected (by simpa [rqReady] using hq) _ e
    exact told evs a p
  · obtain ⟨evs, a, p⟩ := rejected (.inl hk) _ e
    exact told evs a p
  · refine told _ ((a1.trans a2).trans (loadRequest_history r u |>.trans (List.append_nil _).symm)) ?_
    exact p2.append_pinEvents (loadRequest_now r u) (by rw [loadRequest_out]) (by rw [loadRequest_out])
      (by rw [loadRequest_out]) (fun ev hev => by cases hev)

/-! ### Responses given and owed -/

/-- Phase 2 gives a Response exactly where it ends the program that owes it. -/
theorem phase2_answers_owed {s t : State} (h : phase2 s = .next t) :
    responses t.history + owed t = responses s.history + owed s := by
  obtain ⟨-, n, rfl⟩ | ⟨-, -, -, rfl⟩ | ⟨-, -, -, item, -, rfl⟩ := phase2_outcomes h
  · rfl
  · rw [finish_history, owed, finish_pk, owed, responses_append]
    cases s.pk <;> cases s.fault <;> rfl
  · have hpk : owed (startItem item { s with wait := 0 }) = owed s := by rw [owed, startItem_pk]; rfl
    rw [startItem_history, hpk, responses_append]
    cases item with
    | wait n => rfl
    | group ops => rw [responses_groupEvents, Nat.add_zero]

theorem owed_loadRequest (r : Instr) (s : State) : owed (loadRequest r s) = 1 := by
  rw [owed, loadRequest_pk, if_neg (not_or.2 ⟨programKind_ne_none r, programKind_ne_init r⟩)]

/-- Settles O20: a word taken is answered at once or owes its Response from its load, and phase 2 pays what is owed. -/
theorem oneResponsePerAcceptedWord : Obligations.OneResponsePerAcceptedWord := by
  unfold Obligations.OneResponsePerAcceptedWord
  intro s t i hi hr h
  obtain ⟨u, h2, h3⟩ := tick_cases hr h
  have paid : responses u.history + owed u = responses s.history + owed s := by
    rw [phase2_answers_owed h2, phase1_history, responses_append, responses_completions, owed, phase1_pk]
    rfl
  have idle : s.pk = .none → u.pk = .none := fun hk => by
    rw [idle_phases hk (hi.idle hk).1] at h2
    cases h2; exact hk
  have counted : ∀ k, responses (raiseError k u).history + owed (raiseError k u) = responses u.history + owed u + 1 := by
    intro k
    have one : responses [Event.response u.now k] = 1 := rfl
    rw [raiseError_history, responses_append, one, owed, raiseError_pk, owed]
    omega
  obtain ⟨hq, rfl⟩ | ⟨hw, hq, rfl⟩ | ⟨hw, hk, rfl⟩ | ⟨hk, w, r, hw, -, hu, -, rfl⟩ := phase3_outcomes h3
  · have none_taken : taken i s = 0 := by
      obtain e | e | ⟨e, hu⟩ := hq
      · simp [taken, e]
      · simp [taken, e]
      · exact absurd (idle e) hu
    rw [none_taken, paid, Nat.add_zero]
  · rw [counted, paid, taken, if_pos ⟨hw, hq⟩]
  · rw [counted, paid, taken, if_pos ⟨hw, by rw [hk]; exact rqReady_of_idle _⟩]
  · have owed_u : owed u = 0 := by rw [owed, hu]; rfl
    have one_taken : taken i s = 1 := by rw [taken, hw, hk, if_pos ⟨rfl, rqReady_of_idle _⟩]
    rw [loadRequest_history, owed_loadRequest, one_taken, ← paid, owed_u]

/-! ### Issues and pin requests -/

/-- `t` drives the operations of the Issue events of `evs`, and they are outstanding. -/
def RequestsTell (t : State) (evs : List Event) : Prop :=
  ∀ p op, (t.out.req.get p = some op ↔ Event.issue t.now p op ∈ evs) ∧
    (t.out.req.get p = some op → hasBit t.pend p = true ∧ t.txn.get p = op)

theorem requestsTell_silent {t : State} {evs : List Event} (hreq : t.out.req = Pins.const none)
    (hevs : ∀ p op, Event.issue t.now p op ∉ evs) : RequestsTell t evs := by
  intro p op
  rw [hreq, Pins.get_const]
  exact ⟨⟨nofun, fun h => absurd h (hevs p op)⟩, nofun⟩

theorem requestsTell_startGroup {ops : Pins (Option PinOp)} {s : State} (hreq : s.out.req = Pins.const none) :
    RequestsTell (startItem (.group ops) s) (groupEvents s.now ops) := by
  intro p op
  have e : (startItem (.group ops) s).out.req.get p = ops.get p := by
    have driven : (startItem (.group ops) s).out.req.get p = (ops.get p).or (s.out.req.get p) := startGroup_req ops _ p
    rw [driven, hreq, Pins.get_const, Option.or_none]
  rw [e, startItem_now, mem_groupEvents]
  refine ⟨⟨fun hop => ⟨p, op, rfl, hop⟩, ?_⟩, fun hop => ⟨?_, ?_⟩⟩
  · rintro ⟨p', op', e', hop⟩; cases e'; exact hop
  · rw [startItem_group_pend, hop]; simp
  · rw [startItem_group_txn, hop, Option.getD_some]

/-- The operations of phase 2's group are what the port drives, and they are outstanding after it (R72). -/
theorem phase2_requests {s t : State} (hreq : s.out.req = Pins.const none) (h : phase2 s = .next t) :
    ∃ mid, Appends s t mid ∧ RequestsTell t mid := by
  obtain ⟨-, n, rfl⟩ | ⟨-, -, -, rfl⟩ | ⟨-, -, -, item, -, rfl⟩ := phase2_outcomes h
  · exact ⟨[], (List.append_nil _).symm, requestsTell_silent hreq (fun _ _ h => by cases h)⟩
  · refine ⟨_, finish_history _ _, requestsTell_silent ?_ fun p op => ?_⟩
    · rw [finish_out, ← hreq]
      cases s.pk <;> cases s.fault <;> rfl
    · cases s.pk <;> cases s.fault <;> simp
  · cases item with
    | wait n => exact ⟨[], startItem_history _ _, requestsTell_silent hreq (fun _ _ h => by cases h)⟩
    | group ops => exact ⟨_, startItem_history _ _, requestsTell_startGroup hreq⟩

/-- Settles O26: the port is clear when the tick begins, phase 2 alone drives it, and phases 1 and 3 issue nothing. -/
theorem pinRequestOutputs : Obligations.PinRequestOutputs := by
  unfold Obligations.PinRequestOutputs
  refine ⟨fun s t i hr h => ?_, rfl, rfl, rfl, rfl, fun v => ⟨rfl, rfl⟩⟩
  obtain ⟨u, h2, h3⟩ := tick_cases hr h
  have a1 : Appends s (phase1 i.rsp (beginTick s)) (completions i.rsp (beginTick s)) := phase1_history i.rsp (beginTick s)
  obtain ⟨mid, a2, hmid⟩ := phase2_requests (by rw [phase1_out]; rfl) h2
  obtain ⟨fin, a3, hfin, -⟩ := phase3_events h3
  have hout : t.out.req = u.out.req :=
    phase3_keeps (fun s => s.out.req) (fun _ _ => rfl) (fun r s => by rw [loadRequest_out]) h3
  have hpend : t.pend = u.pend := phase3_keeps State.pend (fun _ _ => rfl) loadRequest_pend h3
  have htxn : t.txn = u.txn := phase3_keeps State.txn (fun _ _ => rfl) loadRequest_txn h3
  refine ⟨_, (a1.trans a2).trans a3, fun p op => ?_⟩
  obtain ⟨hiff, hset⟩ := hmid p op
  rw [hout, hpend, htxn, phase3_now h3]
  refine ⟨hiff.trans ?_, hset⟩
  have not_completion : Event.issue u.now p op ∉ completions i.rsp (beginTick s) := by
    intro hm
    obtain ⟨_, _, e, -⟩ := mem_completions hm
    cases e
  have not_fin : Event.issue u.now p op ∉ fin := by
    obtain e | e | e := hfin <;> simp [e]
  simp [not_completion, not_fin]

/-- An Issue is recorded by an item's start only. -/
theorem phase2_issues {s t : State} (h : phase2 s = .next t) :
    issues t.history = issues s.history ∨ (s.pk ≠ .none ∧ s.pend = 0#6) := by
  obtain ⟨-, n, rfl⟩ | ⟨hk, hp, -⟩ | ⟨hk, hp, -⟩ := phase2_outcomes h
  · exact .inl rfl
  · exact .inr ⟨hk, hp⟩
  · exact .inr ⟨hk, hp⟩

theorem phase1_issues (rsp : Pins (Option PinStatus)) (s : State) : issues (phase1 rsp s).history = issues s.history := by
  rw [phase1_history, issues_append, issues_completions, Nat.add_zero]

theorem raiseError_issues (k : RspStatus) (s : State) : issues (raiseError k s).history = issues s.history := by
  rw [raiseError_history, issues_append]; rfl

theorem phase3_issues {rq : Option Word} {m : Mode} {k : Pk} {s t : State} (h : phase3 rq m k s = .next t) :
    issues t.history = issues s.history :=
  phase3_keeps (fun s => issues s.history) raiseError_issues (fun r s => by rw [loadRequest_history]) h

/-- Settles O29: the item starts only where phase 1 has left nothing outstanding. -/
theorem issueOnlyWhenAllAnswered : Obligations.IssueOnlyWhenAllAnswered := by
  unfold Obligations.IssueOnlyWhenAllAnswered
  intro s t i hr h hlt
  obtain ⟨u, h2, h3⟩ := tick_cases hr h
  rw [phase3_issues h3] at hlt
  obtain e | ⟨hk, hp⟩ := phase2_issues h2
  · rw [e, phase1_issues, beginTick_history] at hlt
    exact absurd hlt (Nat.lt_irrefl _)
  · refine ⟨by simpa using hk, fun p hpend => ?_⟩
    have hb := ChanSet.eq_zero_iff.1 hp p
    rw [phase1_pend, beginTick_pend, hpend, Bool.true_and, Option.isNone_eq_false_iff] at hb
    exact hb

/-! ### Runs of ticks -/

theorem NoReset.head {i : TickIn} {ins : List TickIn} (h : NoReset (i :: ins)) : i.rst = false := h i (List.mem_cons_self ..)

theorem NoReset.tail {i : TickIn} {ins : List TickIn} (h : NoReset (i :: ins)) : NoReset ins :=
  fun j hj => h j (List.mem_cons_of_mem _ hj)

theorem runTicks_cons {i : TickIn} {ins : List TickIn} {s t : State} (h : tick i s = .next t) :
    runTicks (i :: ins) s = runTicks ins t := by
  rw [runTicks, h]; rfl

/-- `t` is a later state of a block that is stalled in `s` (R95). -/
structure StalledAt (s t : State) : Prop where
  pk : t.pk = s.pk
  mode : t.mode = s.mode
  upc : t.upc = s.upc
  hWord : t.hWord = s.hWord
  issues : issues t.history = issues s.history
  responses : s.mode ≠ .init → responses t.history = responses s.history

theorem StalledAt.trans {s u t : State} (hu : StalledAt s u) (ht : StalledAt u t) : StalledAt s t where
  pk := ht.pk.trans hu.pk
  mode := ht.mode.trans hu.mode
  upc := ht.upc.trans hu.upc
  hWord := ht.hWord.trans hu.hWord
  issues := ht.issues.trans hu.issues
  responses hm := (ht.responses (by rw [hu.mode]; exact hm)).trans (hu.responses hm)

/-- A tick without the awaited answer leaves the channel outstanding, so phase 2 holds and phase 3 at most turns a word away
in INIT. -/
theorem tick_stalls {s : State} {i : TickIn} {p : Chan} (hi : BlockInv s) (hp : hasBit s.pend p = true) (hr : i.rst = false)
    (ha : i.rsp.get p = none) : ∃ t, tick i s = .next t ∧ BlockInv t ∧ hasBit t.pend p = true ∧ StalledAt s t := by
  obtain ⟨t, h⟩ := hi.tick_answers i
  have hk : s.pk ≠ .none := fun e => by rw [hi.pend_of_idle e] at hp; cases hp
  have hp1 : hasBit (phase1 i.rsp (beginTick s)).pend p = true := by rw [phase1_pend, beginTick_pend, hp, ha]; rfl
  have hold : phase2 (phase1 i.rsp (beginTick s)) = .next (phase1 i.rsp (beginTick s)) :=
    phase2_hold fun e => by rw [e, hasBit_zero] at hp1; cases hp1
  have stalled : StalledAt s (phase1 i.rsp (beginTick s)) := by
    constructor <;> simp [phase1_history]
  refine ⟨t, h, tick_inv hi h, ?_⟩
  rw [tick_of_not_rst s hr, hold] at h
  obtain rfl | ⟨hm, rfl⟩ := phase3_running hk h
  · exact ⟨hp1, stalled⟩
  · refine ⟨hp1, stalled.pk, stalled.mode, stalled.upc, stalled.hWord, ?_, fun hm' => absurd hm hm'⟩
    rw [raiseError_issues]; exact stalled.issues

/-- Settles O30, by induction on the ticks. -/
theorem unansweredTransactionStalls : Obligations.UnansweredTransactionStalls := by
  unfold Obligations.UnansweredTransactionStalls
  intro s ins p hi hp hr ha
  have stalls : ∃ t, runTicks ins s = .next t ∧ hasBit t.pend p = true ∧ StalledAt s t := by
    induction ins generalizing s with
    | nil => exact ⟨s, rfl, hp, rfl, rfl, rfl, rfl, rfl, fun _ => rfl⟩
    | cons i ins ih =>
      obtain ⟨u, hu, hiu, hpu, hsu⟩ := tick_stalls hi hp hr.head (ha i (List.mem_cons_self ..))
      obtain ⟨t, ht, hpt, hst⟩ := ih u hiu hpu hr.tail fun j hj => ha j (List.mem_cons_of_mem _ hj)
      exact ⟨t, (runTicks_cons hu).trans ht, hpt, hsu.trans hst⟩
  obtain ⟨t, ht, hpt, hst⟩ := stalls
  exact ⟨t, ht, hpt, hst.pk, hst.mode, hst.upc, hst.hWord, hst.issues, hst.responses⟩

/-- `t` is `n` ticks of a wait after `s` (R143). -/
structure WaitedFor (n : Nat) (s t : State) : Prop where
  wait : t.wait = s.wait - n
  pk : t.pk = s.pk
  upc : t.upc = s.upc
  pend : t.pend = 0#6
  now : t.now = s.now + n
  lvl : t.lvl = s.lvl
  issues : issues t.history = issues s.history

/-- A tick of a wait that is not its last counts it down, whatever word is presented. -/
theorem tick_waits {s : State} {i : TickIn} (hk : s.pk ≠ .none) (hp : s.pend = 0#6) (hr : i.rst = false) (hw : 1 < s.wait) :
    ∃ t, tick i s = .next t ∧ WaitedFor 1 s t := by
  have counted : phase2 (phase1 i.rsp (beginTick s)) = .next { beginTick s with wait := s.wait - 1 } := by
    rw [phase1_idle (by rw [beginTick_pend]; exact hp)]
    exact phase2_wait (s := beginTick s) hk hp hw
  obtain ⟨t, h3⟩ := phase3_answers i.rq s.mode s.pk { beginTick s with wait := s.wait - 1 }
  refine ⟨t, by rw [tick_of_not_rst s hr, counted]; exact h3, ?_⟩
  obtain rfl | ⟨-, rfl⟩ := phase3_running hk h3
  · exact ⟨rfl, rfl, rfl, hp, rfl, rfl, rfl⟩
  · exact ⟨rfl, rfl, rfl, hp, rfl, rfl, raiseError_issues _ _⟩

/-- Settles O31, by induction on the ticks; the last one goes on because nothing is outstanding. -/
theorem waitTakesExactlyItsCount : Obligations.WaitTakesExactlyItsCount := by
  unfold Obligations.WaitTakesExactlyItsCount
  intro s ins hk hp hr hlen
  have waits : ∃ t, runTicks ins s = .next t ∧ WaitedFor ins.length s t := by
    induction ins generalizing s with
    | nil => exact ⟨s, rfl, rfl, rfl, rfl, hp, rfl, rfl, rfl⟩
    | cons i ins ih =>
      rw [List.length_cons] at hlen
      obtain ⟨u, hu, w⟩ := tick_waits hk hp hr.head (by omega)
      obtain ⟨t, ht, w'⟩ := ih u (by rw [w.pk]; exact hk) w.pend hr.tail (by rw [w.wait]; omega)
      refine ⟨t, (runTicks_cons hu).trans ht, ?_⟩
      exact ⟨by rw [w'.wait, w.wait, List.length_cons]; omega, w'.pk.trans w.pk, w'.upc.trans w.upc, w'.pend,
        by rw [w'.now, w.now, List.length_cons]; omega, w'.lvl.trans w.lvl, w'.issues.trans w.issues⟩
  obtain ⟨t, ht, w⟩ := waits
  refine ⟨t, ht, w.wait, w.pk, w.upc, w.pend, w.now, w.lvl, w.issues, fun i hw1 hri hrq => ?_⟩
  have goes_on : phase2 (beginTick t) = advance { beginTick t with wait := 0 } :=
    phase2_advance (by rw [beginTick_pk, w.pk]; exact hk) w.pend (by rw [beginTick_wait, hw1])
  rw [tick_of_not_rst t hri, phase1_idle (by rw [beginTick_pend]; exact w.pend), goes_on, hrq]
  cases advance { beginTick t with wait := 0 } <;> rfl

end Sys2Proof.Machine
end

section
/-! The micro-programs, item by item (R170, R190, R241, R271). -/

namespace Sys2Proof.Machine

/-- Settles O40 by writing the items out. -/
theorem nibbleItems : Obligations.NibbleItems := fun _ _ => rfl

theorem toNat_hiNibble (b : Byte) : (hiNibble b).toNat = b.toNat / 16 := by
  have := b.isLt
  simp only [hiNibble, BitVec.toNat_setWidth, BitVec.toNat_ushiftRight, Nat.shiftRight_eq_div_pow]
  omega

theorem loNibble_eq_setWidth (b : Byte) : loNibble b = b.setWidth 4 := by
  ext i hi
  interval_cases i <;> simp [loNibble]

theorem toNat_loNibble (b : Byte) : (loNibble b).toNat = b.toNat % 16 := by
  rw [loNibble_eq_setWidth, BitVec.toNat_setWidth]

/-- Settles O41: the two nibbles are the quotient and the rest of the byte by 16. -/
theorem frameItems : Obligations.FrameItems := by
  unfold Obligations.FrameItems
  intro c b m
  refine ⟨hiNibble b, loNibble b, ?_, rfl⟩
  rw [toNat_hiNibble, toNat_loNibble]
  omega

/-- Settles O42: the group of a nonempty mask has a close on each of its channels. -/
theorem closeProgramItems : Obligations.CloseProgramItems := by
  unfold Obligations.CloseProgramItems
  refine ⟨rfl, fun m hm => ⟨_, if_neg hm, fun p => ?_⟩⟩
  rw [Pins.get_ofFn]

/-! ### What holds of every item of a program -/

theorem forall_nibble {P : Item → Prop} {c : Params} {v : Nibble} (hdata : P (dataGroup v))
    (he : ∀ level, P (writeOne .e level)) (hwait : P (.wait c.nStrobe)) : ∀ item ∈ nibble c v, P item := by
  simp only [nibble, List.forall_mem_cons, List.not_mem_nil, false_imp_iff, implies_true, and_true]
  exact ⟨hdata, he true, hwait, he false⟩

theorem forall_frame {P : Item → Prop} {c : Params} {b : Byte} {m : Bool} (hrs : P (writeOne .rs m))
    (hdata : ∀ v, P (dataGroup v)) (he : ∀ level, P (writeOne .e level)) (hwait : P (.wait c.nStrobe)) :
    ∀ item ∈ frame c b m, P item := by
  simp only [frame, List.forall_mem_cons, List.forall_mem_append]
  exact ⟨hrs, forall_nibble (hdata _) he hwait, forall_nibble (hdata _) he hwait⟩

theorem forall_settle {P : Item → Prop} {c : Params} {st : Bool} (hwait : ∀ n, P (.wait n)) :
    ∀ item ∈ settle c st, P item := by
  intro item h
  rw [mem_settle h]
  exact hwait _

theorem forall_initProg {P : Item → Prop} {c : Params} {rm1 : BitVec 2} {lf : Bool}
    (hopen : P (.group (Pins.const (some .openPin)))) (hlow : P (.group (Pins.const (some (.write false)))))
    (hrs : P (writeOne .rs false)) (hdata : ∀ v, P (dataGroup v)) (he : ∀ level, P (writeOne .e level))
    (hwait : ∀ n, P (.wait n)) : ∀ item ∈ initProg c rm1 lf, P item := by
  have nib : ∀ v, ∀ item ∈ nibble c v, P item := fun v => forall_nibble (hdata v) he (hwait _)
  have frm : ∀ b, ∀ item ∈ frame c b false, P item := fun b => forall_frame hrs hdata he (hwait _)
  simp only [initProg, List.forall_mem_append, List.forall_mem_cons, List.not_mem_nil, false_imp_iff, implies_true,
    and_true, hopen, hlow, hwait, true_and]
  exact ⟨⟨⟨⟨⟨⟨⟨⟨nib _, nib _⟩, nib _⟩, nib _⟩, frm _⟩, frm _⟩, frm _⟩, frm _⟩, frm _⟩

/-- The item is a wait, or a group with a member. -/
def HasMember : Item → Prop
  | .group ops => ∃ p, (ops.get p).isSome = true
  | .wait _ => True

theorem hasMember_writeOne (p : Chan) (v : Bool) : HasMember (writeOne p v) := ⟨p, by simp⟩

theorem hasMember_dataGroup (v : Nibble) : HasMember (dataGroup v) := ⟨.d0, rfl⟩

theorem hasMember_closeProg (m : ChanSet) : ∀ item ∈ closeProg m, HasMember item := by
  intro item h
  obtain ⟨k, hget⟩ := List.mem_iff_getElem?.1 h
  obtain ⟨-, hm, rfl⟩ := closeProg_cases hget
  have hbit : ∃ p, hasBit m p = true := by
    by_contra hno
    exact hm (ChanSet.eq_zero_iff.2 fun p => by simpa using fun hp => hno ⟨p, hp⟩)
  obtain ⟨p, hp⟩ := hbit
  exact ⟨p, by rw [Pins.get_ofFn, hp]; rfl⟩

theorem hasMember_prog (s : State) : ∀ item ∈ prog s, HasMember item := by
  have send : ∀ v, HasMember (dataGroup v) := hasMember_dataGroup
  have enable : ∀ level, HasMember (writeOne .e level) := hasMember_writeOne .e
  have wait : ∀ n, HasMember (.wait n) := fun _ => trivial
  unfold prog
  cases s.pk with
  | none => exact fun _ h => by cases h
  | init => exact forall_initProg ⟨.rs, rfl⟩ ⟨.rs, rfl⟩ (hasMember_writeOne .rs _) send enable wait
  | nib => exact List.forall_mem_append.2 ⟨forall_nibble (send _) enable (wait _), forall_settle wait⟩
  | frame =>
    exact List.forall_mem_append.2 ⟨forall_frame (hasMember_writeOne .rs _) send enable (wait _), forall_settle wait⟩
  | close => exact hasMember_closeProg s.hCmask

/-! ### INIT's waits by their places (R241) -/

/-- The count of a wait, and none for a group. -/
def waitCount : Item → Option Nat
  | .group _ => none
  | .wait n => some n

theorem getElem?_wait_iff {items : List Item} {k n : Nat} :
    items[k]? = some (.wait n) ↔ (items.map waitCount)[k]? = some (some n) := by
  rw [List.getElem?_map, Option.map_eq_some_iff]
  constructor
  · exact fun h => ⟨_, h, rfl⟩
  · rintro ⟨item, h, hn⟩
    cases item with
    | group ops => cases hn
    | wait m => cases hn; exact h

/-- The waits of NIBBLE and FRAME by their places. -/
theorem nibble_waitCounts (c : Params) (v : Nibble) :
    (nibble c v).map waitCount = [none, none, some c.nStrobe, none] := rfl

theorem frame_waitCounts (c : Params) (b : Byte) (m : Bool) : (frame c b m).map waitCount =
    [none, none, none, some c.nStrobe, none, none, none, some c.nStrobe, none] := rfl

/-- INIT's waits by their places: the strobe holds of its nibbles and the five long waits. -/
def initWaitCounts (c : Params) : List (Option Nat) :=
  let nib : List (Option Nat) := [none, none, some c.nStrobe, none]
  let frm : List (Option Nat) := [none, none, none, some c.nStrobe, none, none, none, some c.nStrobe, none]
  [none, none, some c.nPowerOn] ++ nib ++ [some c.nW1] ++ nib ++ [some c.nW2] ++ nib ++ [some c.nW3] ++ nib ++ frm ++ frm
    ++ frm ++ frm ++ frm ++ [some c.nLong]

theorem initProg_waitCounts (c : Params) (rm1 : BitVec 2) (lf : Bool) :
    (initProg c rm1 lf).map waitCount = initWaitCounts c := by
  simp only [initProg, List.map_append, nibble_waitCounts, frame_waitCounts]
  rfl

theorem initWaitCounts_hold {c : Params} {k n : Nat} (h : (initWaitCounts c)[k]? = some (some n))
    (hk : k ∉ [2, 7, 12, 17, 67]) : n = c.nStrobe := by
  have hlt : k < 68 := (List.getElem?_eq_some_iff.1 h).1
  simp only [initWaitCounts, List.cons_append, List.nil_append] at h
  simp only [List.mem_cons, List.not_mem_nil, or_false, not_or] at hk
  interval_cases k <;> simp_all

theorem initWaitCounts_long (c : Params) :
    (initWaitCounts c)[2]? = some (some c.nPowerOn) ∧ (initWaitCounts c)[7]? = some (some c.nW1) ∧
    (initWaitCounts c)[12]? = some (some c.nW2) ∧ (initWaitCounts c)[17]? = some (some c.nW3) ∧
    (initWaitCounts c)[67]? = some (some c.nLong) := by
  simp [initWaitCounts]

/-- The counts of INIT's waits (R241). -/
theorem initProg_wait_mem {c : Params} {rm1 : BitVec 2} {lf : Bool} {n : Nat}
    (h : Item.wait n ∈ initProg c rm1 lf) : n ∈ Config.counts c :=
  wait_mem_prog (s := { State.reset with params := c, cfgRowsM1Q := rm1, cfgLfQ := lf }) h

/-- Settles O43: INIT's waits by their places, and a member in every group. -/
theorem initProgramItems : Obligations.InitProgramItems := by
  unfold Obligations.InitProgramItems
  intro c rm1 lf
  simp only [getElem?_wait_iff, initProg_waitCounts]
  obtain ⟨h2, h7, h12, h17, h67⟩ := initWaitCounts_long c
  refine ⟨initProg_length c rm1 lf, h2, h7, h12, h17, h67, fun k item h => ?_⟩
  cases item with
  | group ops =>
    exact hasMember_prog { State.reset with params := c, cfgRowsM1Q := rm1, cfgLfQ := lf } _ (List.mem_of_getElem? h)
  | wait n =>
    refine ⟨initProg_wait_mem (List.mem_of_getElem? h), initWaitCounts_hold ?_⟩
    rw [← initProg_waitCounts c rm1 lf]
    exact getElem?_wait_iff.1 h

end Sys2Proof.Machine
end

section
/-! The configuration is read by INIT's function-set frame only (R253): a change of the configuration registers passes
through every part of a tick that does not start one of that frame's items. -/

namespace Sys2Proof.Machine

/-- The state with other configuration registers. -/
def setConfig (rm1 : BitVec 2) (lf : Bool) (s : State) : State := { s with cfgRowsM1Q := rm1, cfgLfQ := lf }

/-- An outcome with other configuration registers. -/
def outcomeSetConfig (rm1 : BitVec 2) (lf : Bool) (o : Host.Outcome State Fault Refusal) :
    Host.Outcome State Fault Refusal := andThen o fun t => .next (setConfig rm1 lf t)

/-- What passes through one channel's part of a phase passes through all channels'. -/
theorem foldl_setConfig {α : Type} {rm1 : BitVec 2} {lf : Bool} {f : State → α → State}
    (hf : ∀ s a, f (setConfig rm1 lf s) a = setConfig rm1 lf (f s a)) (as : List α) :
    ∀ s, as.foldl f (setConfig rm1 lf s) = setConfig rm1 lf (as.foldl f s) := by
  induction as with
  | nil => exact fun _ => rfl
  | cons a as ih => intro s; rw [List.foldl_cons, List.foldl_cons, hf, ih]

theorem sample_setConfig (rm1 : BitVec 2) (lf : Bool) (rsp : Pins (Option PinStatus)) (s : State) (p : Chan) :
    sample rsp (setConfig rm1 lf s) p = setConfig rm1 lf (sample rsp s p) := by
  have hp : (setConfig rm1 lf s).pend = s.pend := rfl
  unfold sample
  rw [hp]
  split
  · split <;> rfl
  · rfl

theorem phase1_setConfig (rm1 : BitVec 2) (lf : Bool) (rsp : Pins (Option PinStatus)) (s : State) :
    phase1 rsp (setConfig rm1 lf s) = setConfig rm1 lf (phase1 rsp s) :=
  foldl_setConfig (sample_setConfig rm1 lf rsp) Chan.all s

theorem startItem_setConfig (rm1 : BitVec 2) (lf : Bool) (item : Item) (s : State) :
    startItem item (setConfig rm1 lf s) = setConfig rm1 lf (startItem item s) := by
  cases item with
  | wait n => rfl
  | group ops =>
    refine foldl_setConfig (f := issueMember ops) (fun s p => ?_) Chan.all
      { s with upc := s.upc + 1#7, istate := if s.pk = .init then icode s.upc.toNat else s.istate }
    unfold issueMember
    split <;> rfl

theorem finish_setConfig (rm1 : BitVec 2) (lf : Bool) (f : Bool) (s : State) :
    finish f (setConfig rm1 lf s) = setConfig rm1 lf (finish f s) := by
  have hk : (setConfig rm1 lf s).pk = s.pk := rfl
  unfold finish
  rw [hk]
  cases s.pk <;> cases f <;> rfl

/-! ### The items that look at the configuration -/

/-- An item on either side of the middle of a list does not look at the middle, whose length is fixed. -/
theorem getElem?_outside {α : Type} {before mid mid' after : List α} {k : Nat} (hlen : mid.length = mid'.length)
    (hk : k < before.length ∨ before.length + mid.length ≤ k) :
    (before ++ (mid ++ after))[k]? = (before ++ (mid' ++ after))[k]? := by
  obtain hk | hk := hk
  · rw [List.getElem?_append_left hk, List.getElem?_append_left hk]
  · have skip : ∀ m : List α, m.length = mid.length → (before ++ (m ++ after))[k]? = after[k - before.length - m.length]? := by
      intro m hm
      rw [List.getElem?_append_right (by omega), List.getElem?_append_right (by omega)]
    rw [skip mid rfl, skip mid' hlen.symm, hlen]

theorem initProg_getElem?_outside {c : Params} {rm1 rm2 : BitVec 2} {l1 l2 : Bool} {k : Nat} (hk : k < 22 ∨ 30 < k) :
    (initProg c rm1 l1)[k]? = (initProg c rm2 l2)[k]? := by
  obtain ⟨before, after, hb, -, e⟩ := initProg_split c
  rw [e rm1 l1, e rm2 l2]
  refine getElem?_outside rfl ?_
  rw [hb, frame_length]
  omega

theorem initProg_congr {c : Params} {rm1 rm2 : BitVec 2} {l1 l2 : Bool} (h : functionSet rm1 l1 = functionSet rm2 l2) :
    initProg c rm1 l1 = initProg c rm2 l2 := by
  obtain ⟨before, after, -, -, e⟩ := initProg_split c
  rw [e rm1 l1, e rm2 l2, h]

/-- The sequencer is not at one of the items that look at the configuration. -/
def OutsideFunctionSet (s : State) : Prop := s.pk ≠ .init ∨ s.upc.toNat < 22 ∨ 30 < s.upc.toNat

theorem prog_getElem?_setConfig (rm1 : BitVec 2) (lf : Bool) {s : State} (h : OutsideFunctionSet s) :
    (prog (setConfig rm1 lf s))[s.upc.toNat]? = (prog s)[s.upc.toNat]? := by
  have hk : (setConfig rm1 lf s).pk = s.pk := rfl
  unfold prog
  rw [hk]
  cases e : s.pk with
  | init => exact initProg_getElem?_outside (h.resolve_left (not_not_intro e))
  | none => rfl
  | nib => rfl
  | frame => rfl
  | close => rfl

theorem prog_length_setConfig (rm1 : BitVec 2) (lf : Bool) (s : State) :
    (prog (setConfig rm1 lf s)).length = (prog s).length := by
  have hk : (setConfig rm1 lf s).pk = s.pk := rfl
  unfold prog
  rw [hk]
  cases s.pk with
  | init => rw [initProg_length, initProg_length]
  | none => rfl
  | nib => rfl
  | frame => rfl
  | close => rfl

theorem advance_setConfig (rm1 : BitVec 2) (lf : Bool) {s : State} (h : OutsideFunctionSet s) :
    advance (setConfig rm1 lf s) = outcomeSetConfig rm1 lf (advance s) := by
  have hf : (setConfig rm1 lf s).fault = s.fault := rfl
  have hu : (setConfig rm1 lf s).upc = s.upc := rfl
  unfold advance
  rw [hf, hu, prog_length_setConfig, prog_getElem?_setConfig rm1 lf h]
  split
  · rw [finish_setConfig]; rfl
  · split
    · rw [finish_setConfig]; rfl
    · split
      · rw [startItem_setConfig]; rfl
      · rfl

theorem phase2_setConfig (rm1 : BitVec 2) (lf : Bool) {s : State} (h : OutsideFunctionSet s) :
    phase2 (setConfig rm1 lf s) = outcomeSetConfig rm1 lf (phase2 s) := by
  have hk : (setConfig rm1 lf s).pk = s.pk := rfl
  have hp : (setConfig rm1 lf s).pend = s.pend := rfl
  have hw : (setConfig rm1 lf s).wait = s.wait := rfl
  unfold phase2
  rw [hk, hp, hw]
  split
  · rfl
  · split
    · rfl
    · split
      · rfl
      · exact advance_setConfig rm1 lf (s := { s with wait := s.wait - 1 }) h

theorem exec_setConfig (rm1 : BitVec 2) (lf : Bool) (r : Instr) (s : State) :
    exec r (setConfig rm1 lf s) = outcomeSetConfig rm1 lf (exec r s) := by
  have hm : (setConfig rm1 lf s).mode = s.mode := rfl
  have hk : (setConfig rm1 lf s).pk = s.pk := rfl
  have hload : loadRequest r (setConfig rm1 lf s) = setConfig rm1 lf (loadRequest r s) := by cases r <;> rfl
  rw [exec_eq_request, exec_eq_request]
  unfold request
  rw [hm, hk, hload]
  split
  · rfl
  · split
    · rfl
    · split
      · rfl
      · split <;> rfl

theorem phase3_setConfig (rm1 : BitVec 2) (lf : Bool) (rq : Option Word) (m : Mode) (k : Pk) (s : State) :
    phase3 rq m k (setConfig rm1 lf s) = outcomeSetConfig rm1 lf (phase3 rq m k s) := by
  unfold phase3
  split
  · rfl
  · split
    · rfl
    · split
      · rfl
      · split
        · rfl
        · exact exec_setConfig rm1 lf _ s

theorem tick_setConfig (rm1 : BitVec 2) (lf : Bool) {s : State} {i : TickIn} (hr : i.rst = false)
    (h : OutsideFunctionSet s) : tick i (setConfig rm1 lf s) = outcomeSetConfig rm1 lf (tick i s) := by
  have begun : phase1 i.rsp (beginTick (setConfig rm1 lf s)) = setConfig rm1 lf (phase1 i.rsp (beginTick s)) :=
    phase1_setConfig rm1 lf i.rsp (beginTick s)
  have hu : OutsideFunctionSet (phase1 i.rsp (beginTick s)) := by simpa [OutsideFunctionSet] using h
  rw [tick_of_not_rst _ hr, tick_of_not_rst s hr, begun, phase2_setConfig rm1 lf hu]
  cases phase2 (phase1 i.rsp (beginTick s)) with
  | next u => exact phase3_setConfig rm1 lf i.rq s.mode s.pk u
  | fault r => rfl
  | refused r => rfl

/-- Settles O47: the tick passes the change on, and INIT's items look at the configuration in one frame, by its byte. -/
theorem configurationReadOnlyByFunctionSet : Obligations.ConfigurationReadOnlyByFunctionSet := by
  unfold Obligations.ConfigurationReadOnlyByFunctionSet
  exact ⟨fun s i rm1 lf h hr => tick_setConfig rm1 lf hr h, fun c rm1 rm2 l1 l2 k hk => initProg_getElem?_outside hk,
    fun c rm1 rm2 l1 l2 h => initProg_congr h⟩

end Sys2Proof.Machine
end

section
/-! The host commands (spec/43_host_commands.md): their plans, the host's registers, the queue, and the answers. -/

namespace Sys2Proof.Machine

/-- Settles O54 by encoding the plans. -/
theorem fixedCommandWords : Obligations.FixedCommandWords := fun _ _ => ⟨rfl, rfl, rfl, rfl⟩

/-! ### SETCUR (R213) -/

theorem or_0x80_of_lt {a : Nat} (h : a ≤ 0x7F) : 0x80 ||| a = 0x80 + a :=
  (Nat.two_pow_add_eq_or_of_lt (i := 7) (b := a) (by omega) 1).symm

/-- Bit 7 is set already from 0x80 to 0xFF. -/
theorem or_0x80_of_ge {a : Nat} (h : 0x80 ≤ a) (h' : a ≤ 0xFF) : 0x80 ||| a = a := by
  have e : 0x80 ||| (a - 0x80) = a := by rw [or_0x80_of_lt (by omega)]; omega
  calc 0x80 ||| a
    _ = 0x80 ||| (0x80 ||| (a - 0x80)) := by rw [e]
    _ = 0x80 ||| (a - 0x80) := by rw [← Nat.or_assoc, Nat.or_self]
    _ = a := e

theorem clampRow_eq (c : HostCfg) (row : Int) : clampRow c.rows row = (max 0 (min row (c.rows - 1 : Int))).toNat := by
  have := c.rows_range
  unfold clampRow
  omega

/-- Settles O55: the byte is `0x80 ||| a`, which is `0x80 + a`, `a`, or at least `a`. -/
theorem setCursorBytes : Obligations.SetCursorBytes := by
  unfold Obligations.SetCursorBytes
  refine ⟨fun c r col row a ha => ?_, HostCfg.rows_range, fun _ => rfl⟩
  have hbyte : setCurByte c col row = 0x80 ||| a := by rw [ha, setCurByte, clampRow_eq]
  have sends : setCurByte c col row ≤ 0xFF → plan c r (.setCur col row) =
      { requests := [.cmd (BitVec.ofNat 8 (setCurByte c col row)) false], thenInvalid := false } :=
    fun h => if_neg (by omega)
  have fails : 0xFF < setCurByte c col row → plan c r (.setCur col row) = { requests := [], thenInvalid := true } :=
    fun h => if_pos h
  rw [hbyte] at sends fails
  refine ⟨fun h => ?_, fun h h' => ?_, fun h => ?_⟩
  · rw [or_0x80_of_lt h] at sends
    exact sends (by omega)
  · rw [or_0x80_of_ge h h'] at sends
    exact sends h'
  · exact fails (Nat.lt_of_lt_of_le h Nat.right_le_or)

/-! ### PRINT (R218) -/

theorem printStart_eq (len : Nat) : printStart len = if len < 160 then 0 else (len / 80 - 1) * 80 := by
  unfold printStart
  split_ifs <;> omega

theorem printPlan_of_bytes {chars : List Nat} (h : ∀ ch ∈ chars, ch ≤ 0xFF) : printPlan chars =
    { requests := chars.map fun ch => .data (BitVec.ofNat 8 ch) false, thenInvalid := false } := by
  have all : chars.takeWhile (fun c => decide (c ≤ 0xFF)) = chars :=
    List.takeWhile_eq_self_iff.2 fun c hc => decide_eq_true (h c hc)
  have none : (chars.any fun c => decide (0xFF < c)) = false :=
    List.any_eq_false.2 fun c hc => by simpa using h c hc
  rw [printPlan, all, none]

theorem printPlan_of_wide {before after : List Nat} {wide : Nat} (h : ∀ ch ∈ before, ch ≤ 0xFF) (hw : 0xFF < wide) :
    printPlan (before ++ wide :: after) =
      { requests := before.map fun ch => .data (BitVec.ofNat 8 ch) false, thenInvalid := true } := by
  have cut : (before ++ wide :: after).takeWhile (fun c => decide (c ≤ 0xFF)) = before := by
    rw [List.takeWhile_append_of_pos fun c hc => decide_eq_true (h c hc),
      List.takeWhile_cons_of_neg (by simpa using hw), List.append_nil]
  have some : ((before ++ wide :: after).any fun c => decide (0xFF < c)) = true :=
    List.any_eq_true.2 ⟨wide, by simp, decide_eq_true hw⟩
  rw [printPlan, cut, some]

/-- Settles O57: the start index, and the cut at the first wide character. -/
theorem printSendsFromStartIndex : Obligations.PrintSendsFromStartIndex := by
  unfold Obligations.PrintSendsFromStartIndex
  intro c r text sent hsent
  have hplan : plan c r (.print text) = printPlan sent := by rw [hsent, ← printStart_eq]; rfl
  rw [hplan]
  refine ⟨printPlan_of_bytes, fun before after wide e h hw => ?_⟩
  rw [e]
  exact printPlan_of_wide h hw

/-! ### The display registers (R214 to R216) -/

theorem toNat_dcByte (r : HostRegs) :
    (dcByte r).toNat = 8 + 4 * r.displayOn.toNat + 2 * r.cursorOn.toNat + r.blinkOn.toNat := by
  obtain ⟨d, c, b, l, a⟩ := r
  cases d <;> cases c <;> cases b <;> simp [dcByte, flagBit]

theorem toNat_emByte (r : HostRegs) : (emByte r).toNat = 4 + 2 * r.leftToRight.toNat + r.autoscrollOn.toNat := by
  obtain ⟨d, c, b, l, a⟩ := r
  cases l <;> cases a <;> simp [emByte, flagBit]

/-- Settles O58: the bytes by their bits, and the toggles one by one. -/
theorem displayToggleLaws : Obligations.DisplayToggleLaws := by
  unfold Obligations.DisplayToggleLaws
  refine ⟨rfl, rfl, fun r => ⟨toNat_dcByte r, toNat_emByte r, fun c op r' => ⟨?control, ?mode⟩, rfl, rfl, ?restored⟩⟩
  case control => rintro (⟨rfl, rfl⟩ | ⟨rfl, rfl⟩ | ⟨rfl, rfl⟩ | ⟨rfl, rfl⟩ | ⟨rfl, rfl⟩ | ⟨rfl, rfl⟩) <;> exact ⟨rfl, rfl⟩
  case mode => rintro (⟨rfl, rfl⟩ | ⟨rfl, rfl⟩ | ⟨rfl, rfl⟩ | ⟨rfl, rfl⟩) <;> exact ⟨rfl, rfl⟩
  case restored => exact eq_comm

/-! ### Host and block together -/

/-- Settles O56: neither a fetch nor an observation touches the host's configuration, and the block's is sampled at reset. -/
theorem hostRowsAgree : Obligations.HostRowsAgree := by
  unfold Obligations.HostRowsAgree
  refine ⟨rfl, fun y z i h hy => ?_⟩
  obtain ⟨htick, hdriver⟩ := systemTick_cases h
  have hcfg : z.driver.cfg = (y.presenter i).cfg := by rw [hdriver, Driver.observe_cfg]
  unfold System.rowsAgree HostCfg.rows
  rw [hcfg]
  obtain hr | hr := Bool.eq_false_or_eq_true i.rst
  · rw [tick_of_rst y.block (i := { i with rq := (y.presenter i).word }) hr] at htick
    rw [System.presenter, if_pos hr, ← Host.Outcome.next.inj htick]
    rfl
  · have hrows := (tick_sameConfig (i := { i with rq := (y.presenter i).word }) hr htick).1
    rw [System.presenter, if_neg (by simp [hr]), Driver.fetch_cfg, hrows]
    exact hy.resolve_left (by simp [hr])

/-- The operation taken from the queue runs by its plan, or has ended (R222). -/
theorem Driver.fetch_taken {d : Driver} {op : HostOp} {q : List HostOp} (hc : d.cur = none) (hq : d.queue = op :: q) :
    d.fetch true = { d with queue := q }.settleOp
      { op := op, rest := (plan d.cfg d.regs op).requests, thenInvalid := (plan d.cfg d.regs op).thenInvalid
        awaiting := false } := by
  obtain ⟨cfg, regs, queue, cur, signals⟩ := d
  cases hc
  cases hq
  rfl

theorem Driver.fetch_none {d : Driver} {initOver : Bool} (h : d.cur ≠ none ∨ initOver = false ∨ d.queue = []) :
    d.fetch initOver = d := by
  unfold Driver.fetch
  split
  · rename_i hc hq
    obtain h | h | h := h
    · exact absurd hc h
    · cases h
    · rw [hq] at h; cases h
  · rfl

theorem Driver.settleOp_of_ne_nil {d : Driver} {r : Running} (h : r.rest ≠ []) :
    d.settleOp r = { d with cur := some { r with awaiting := false } } := if_neg h

/-- An operation with no request left has succeeded, unless the host fails it. -/
theorem Driver.settleOp_done {d : Driver} {r : Running} (h : r.rest = []) (hi : r.thenInvalid = false) :
    d.settleOp r = { d with regs := regsAfter r.op d.regs, cur := none, signals := d.signals ++ successSignals r.op } := by
  rw [Driver.settleOp, if_pos h, hi]; rfl

theorem Driver.settleOp_failed {d : Driver} {r : Running} (h : r.rest = []) (hi : r.thenInvalid = true) :
    d.settleOp r = { d with cur := none, signals := d.signals ++ [.error .invalidValue] } := by
  rw [Driver.settleOp, if_pos h, hi]; rfl

/-- What the presenter is in a tick that takes an operation from the queue. -/
theorem System.presenter_takes {y : System} {i : TickIn} (hr : i.rst = false) {op : HostOp} {q : List HostOp}
    (hc : y.driver.cur = none) (hm : y.block.mode ≠ .init) (hq : y.driver.queue = op :: q) :
    y.presenter i = { y.driver with queue := q }.settleOp
      { op := op, rest := (plan y.driver.cfg y.driver.regs op).requests
        thenInvalid := (plan y.driver.cfg y.driver.regs op).thenInvalid, awaiting := false } := by
  rw [System.presenter, if_neg (by simp [hr]), decide_eq_true hm, Driver.fetch_taken hc hq]

theorem System.presenter_keeps {y : System} {i : TickIn} (hr : i.rst = false)
    (h : y.driver.cur ≠ none ∨ y.block.mode = .init ∨ y.driver.queue = []) : y.presenter i = y.driver := by
  rw [System.presenter, if_neg (by simp [hr])]
  exact Driver.fetch_none (h.imp id (Or.imp (fun hm => by simp [hm]) id))

/-- Settles O59, clause by clause: the submission, the word, the tick of both, and what the presenter is. -/
theorem driverQueueIsFifo : Obligations.DriverQueueIsFifo := by
  unfold Obligations.DriverQueueIsFifo
  refine ⟨fun _ _ => rfl, fun d r h => by rw [Driver.word, h], fun d h => by rw [Driver.word, h], fun y z i h => ?_⟩
  obtain ⟨htick, hdriver⟩ := systemTick_cases h
  refine ⟨htick, hdriver, fun hr => ?reset, fun hr => ⟨?queue, fun op q pl hc hm hq hpl => ⟨?runs, ?ends, ?fails⟩,
    System.presenter_keeps hr⟩⟩
  case reset =>
    rw [tick_of_rst y.block (i := { i with rq := (y.presenter i).word }) hr] at htick
    have hout : z.block.out = resetOut := by rw [← Host.Outcome.next.inj htick]; rfl
    have lost : y.presenter i = y.driver.resetHost i.cfgRowsM1 := if_pos hr
    rw [hdriver, hout, lost, Driver.observe_idle rfl]
    rfl
  case queue => rw [hdriver, Driver.observe_queue]
  case runs =>
    intro hne
    rw [hpl] at hne ⊢
    rw [System.presenter_takes hr hc hm hq, Driver.settleOp_of_ne_nil hne]
  case ends =>
    intro hnil hok
    rw [hpl] at hnil hok
    rw [System.presenter_takes hr hc hm hq, Driver.settleOp_done hnil hok, ← hc]
  case fails =>
    intro hnil hbad
    rw [hpl] at hnil hbad
    rw [System.presenter_takes hr hc hm hq, Driver.settleOp_failed hnil hbad, ← hc]

/-! ### The answers to a running operation (R210, R214, R221) -/

/-- The Ready pulse is signalled after whatever the tick made of the operation. -/
def Driver.signalReady (d : Driver) (o : TickOut) : Driver :=
  { d with signals := d.signals ++ if o.evReady = true then [.ready] else [] }

theorem Driver.signalReady_eq (d : Driver) (o : TickOut) :
    (if o.evReady = true then { d with signals := d.signals ++ [.ready] } else d) = d.signalReady o := by
  unfold Driver.signalReady
  split
  · rfl
  · rw [List.append_nil]

/-- The first request of a running operation is accepted in the tick, or has been before. -/
theorem Driver.accepted_eq {d : Driver} {r : Running} {w : Instr} {rest : List Instr} (o : TickOut) (hc : d.cur = some r)
    (hr : r.rest = w :: rest) : (r.awaiting || (d.word.isSome && o.rqReady)) = (r.awaiting || o.rqReady) := by
  cases ha : r.awaiting
  · simp [Driver.word, hc, hr, ha]
  · rfl

/-- Without a Response to the accepted request, only the acceptance is noted. -/
theorem Driver.observe_unanswered {d : Driver} {r : Running} {w : Instr} {rest : List Instr} {o : TickOut}
    (hc : d.cur = some r) (hr : r.rest = w :: rest) (h : o.rsp = none ∨ (r.awaiting || o.rqReady) = false) :
    d.observe o = Driver.signalReady { d with cur := some { r with awaiting := r.awaiting || o.rqReady } } o := by
  have htaken := Driver.accepted_eq o hc hr
  cases ho : o.rsp with
  | none =>
    rw [Driver.observe, hc]
    simp only [ho, htaken]
    exact Driver.signalReady_eq _ o
  | some st =>
    have hno : (r.awaiting || o.rqReady) = false := h.resolve_left (by rw [ho]; nofun)
    have hcur : d = { d with cur := some { r with awaiting := r.awaiting || o.rqReady } } := by
      have hr0 : r.awaiting = (r.awaiting || o.rqReady) := by rw [hno]; exact (Bool.or_eq_false_iff.1 hno).1
      rw [← hr0, ← hc]
    rw [← hcur, Driver.observe, hc]
    simp only [ho, htaken, hno, Bool.false_eq_true, if_false]
    exact Driver.signalReady_eq d o

/-- A Response to the accepted request: OK moves on, and any other status ends the operation. -/
theorem Driver.observe_answered {d : Driver} {r : Running} {w : Instr} {rest : List Instr} {o : TickOut} {st : RspStatus}
    (hc : d.cur = some r) (hr : r.rest = w :: rest) (ho : o.rsp = some st) (ha : (r.awaiting || o.rqReady) = true) :
    d.observe o = Driver.signalReady
      (if st = .ok then d.settleOp { r with rest := rest, awaiting := false } else d.conclude r.op st) o := by
  have htaken := Driver.accepted_eq o hc hr
  rw [Driver.observe, hc]
  simp only [ho, htaken, ha, if_true, hr, List.tail_cons]
  exact Driver.signalReady_eq _ o

/-- Settles O60, by the Response of the tick and whether the request has been accepted. -/
theorem operationRunsByResponses : Obligations.OperationRunsByResponses := by
  unfold Obligations.OperationRunsByResponses
  refine ⟨fun op => by cases op <;> rfl, fun d o h => ?idle, fun d r o w rest hc hr => ?running⟩
  case idle => rw [Driver.observe_idle h, Driver.signalReady_eq]; rfl
  case running =>
    intro accepted pulse
    refine ⟨fun h => Driver.observe_unanswered hc hr h, fun ho ha hne => ?next, fun ho ha hnil hok => ?ends,
      fun ho ha hnil hbad => ?fails, fun st ho hst ha => ?error⟩
    case next =>
      rw [Driver.observe_answered hc hr ho ha, if_pos rfl, Driver.settleOp_of_ne_nil hne]; rfl
    case ends =>
      rw [Driver.observe_answered hc hr ho ha, if_pos rfl,
        Driver.settleOp_done (r := { r with rest := rest, awaiting := false }) hnil hok]; rfl
    case fails =>
      rw [Driver.observe_answered hc hr ho ha, if_pos rfl,
        Driver.settleOp_failed (r := { r with rest := rest, awaiting := false }) hnil hbad]; rfl
    case error =>
      rw [Driver.observe_answered hc hr ho ha, if_neg hst, Driver.conclude, if_neg hst]; rfl

end Sys2Proof.Machine
end

section
/-! Runs of a program to its finish, under any answers: what every part of a tick keeps holds when the program ends. -/

namespace Sys2Proof.Machine

/-- `J` is kept by what a tick does to a running program: sampling, counting a wait, starting an item, turning a word
away. -/
structure KeptByRun (J : State → Prop) : Prop where
  sampled : ∀ s rsp, BlockInv s → J s → J (phase1 rsp (beginTick s))
  waited : ∀ s n, J s → J { s with wait := n }
  started : ∀ s item, BlockInv s → J s → s.pend = 0#6 → s.fault = false → (prog s)[s.upc.toNat]? = some item →
    J (startItem item s)
  rejected : ∀ s k, J s → J (raiseError k s)

/-- `u` is where a program of which `J` held has ended: its last state finishes (R146), and in INIT a word may be turned
away in the same tick. -/
def EndedFrom (J : State → Prop) (u : State) : Prop :=
  ∃ v, BlockInv v ∧ J v ∧ v.pk ≠ .none ∧ v.pend = 0#6 ∧ (v.fault = true ∨ v.upc.toNat = (prog v).length) ∧
    (u = finish v.fault v ∨ (v.mode = .init ∧ u = raiseError .notReady (finish v.fault v)))

/-- A tick of a running program keeps it running, with `J`, or ends it. -/
theorem KeptByRun.tick {J : State → Prop} (hJ : KeptByRun J) {s t : State} {i : TickIn} (hi : BlockInv s) (hj : J s)
    (hk : s.pk ≠ .none) (hr : i.rst = false) (h : tick i s = .next t) : (J t ∧ t.pk = s.pk) ∨ EndedFrom J t := by
  obtain ⟨u, h2, h3⟩ := tick_cases hr h
  have hi1 : BlockInv (phase1 i.rsp (beginTick s)) := phase1_inv i.rsp (beginTick_inv hi)
  have hj1 : J (phase1 i.rsp (beginTick s)) := hJ.sampled s i.rsp hi hj
  have hk1 : (phase1 i.rsp (beginTick s)).pk = s.pk := phase1_pk _ _
  have hm1 : (phase1 i.rsp (beginTick s)).mode = s.mode := phase1_mode _ _
  have later : ∀ {u}, J u → u.pk = s.pk → phase3 i.rq s.mode s.pk u = .next t → J t ∧ t.pk = s.pk := by
    intro u hj hpk h3
    obtain rfl | ⟨-, rfl⟩ := phase3_running hk h3
    · exact ⟨hj, hpk⟩
    · exact ⟨hJ.rejected u _ hj, hpk⟩
  generalize hs1 : phase1 i.rsp (beginTick s) = s1 at *
  obtain ⟨-, n, rfl⟩ | ⟨hk', hp, hend, rfl⟩ | ⟨hk', hp, hf, item, hitem, rfl⟩ := phase2_outcomes h2
  · exact .inl (later (hJ.waited _ n hj1) hk1 h3)
  · refine .inr ⟨{ s1 with wait := 0 }, hi1.setWait (Nat.zero_le _) hk', hJ.waited _ 0 hj1, hk', hp, hend, ?_⟩
    obtain rfl | ⟨hm, rfl⟩ := phase3_running hk h3
    · exact .inl rfl
    · exact .inr ⟨hm1.trans hm, rfl⟩
  · refine .inl (later ?_ ((startItem_pk item { s1 with wait := 0 }).trans hk1) h3)
    exact hJ.started _ item (hi1.setWait (Nat.zero_le _) hk') (hJ.waited _ 0 hj1) hp hf hitem

theorem runToIdle_of_idle {ins : List TickIn} {s : State} (hk : s.pk = .none) : runToIdle ins s = some s := by
  unfold runToIdle
  exact if_pos hk

theorem runToIdle_running {i : TickIn} {ins : List TickIn} {s t : State} (hk : s.pk ≠ .none) (h : tick i s = .next t) :
    runToIdle (i :: ins) s = runToIdle ins t := by
  conv_lhs => unfold runToIdle
  rw [if_neg hk]
  simp only [h]

theorem EndedFrom.pk {J : State → Prop} {u : State} (h : EndedFrom J u) : u.pk = .none := by
  obtain ⟨v, -, -, -, -, -, rfl | ⟨-, rfl⟩⟩ := h
  · exact finish_pk _ _
  · exact (raiseError_pk _ _).trans (finish_pk _ _)

/-- A run to the finish ends the program with `J`. -/
theorem KeptByRun.runToIdle {J : State → Prop} (hJ : KeptByRun J) {ins : List TickIn} {s u : State} (hi : BlockInv s)
    (hj : J s) (hk : s.pk ≠ .none) (hr : NoReset ins) (h : runToIdle ins s = some u) : EndedFrom J u := by
  induction ins generalizing s with
  | nil =>
    unfold Machine.runToIdle at h
    rw [if_neg hk] at h
    cases h
  | cons i ins ih =>
    obtain ⟨t, ht⟩ := hi.tick_answers i
    rw [runToIdle_running hk ht] at h
    obtain ⟨hjt, hkt⟩ | ended := hJ.tick hi hj hk hr.head ht
    · exact ih (tick_inv hi ht) hjt (by rw [hkt]; exact hk) hr.tail h
    · rw [runToIdle_of_idle ended.pk] at h
      cases h
      exact ended

end Sys2Proof.Machine
end

section
/-! CLOSE to its finish (R270, R271, R273). -/

namespace Sys2Proof.Machine

/-- While CLOSE runs, a channel of the mask is at REL once its close has answered, and every other level is as before. -/
structure Releasing (lvl : Pins Lvl) (mask : ChanSet) (s : State) : Prop where
  pk : s.pk = .close
  hCmask : s.hCmask = mask
  lvl : ∀ p, s.lvl.get p = if hasBit mask p = true ∧ s.upc ≠ 0#7 ∧ hasBit s.pend p = false then .rel else lvl.get p

theorem releasing_kept (lvl : Pins Lvl) (mask : ChanSet) : KeptByRun (Releasing lvl mask) where
  waited _ _ h := ⟨h.pk, h.hCmask, h.lvl⟩
  rejected _ _ h := ⟨h.pk, h.hCmask, h.lvl⟩
  sampled s rsp hi h := by
    refine ⟨(phase1_pk _ _).trans h.pk, (phase1_hCmask _ _).trans h.hCmask, fun p => ?_⟩
    rw [phase1_lvl, phase1_upc, phase1_pend]
    have hl : (beginTick s).lvl.get p = _ := h.lvl p
    cases ha : answer rsp (beginTick s) p with
    | some st =>
      obtain ⟨hp, hrsp⟩ := answer_some ha
      have hop : (beginTick s).txn.get p = .closePin := (beginTick_inv hi).txn_of_close h.pk hp
      have hu : s.upc ≠ 0#7 := fun hu => by rw [beginTick_pend, hi.pend_of_upc_zero hu] at hp; cases hp
      obtain ⟨ops, hc, hops⟩ := hi.outstanding p hp
      have hmask : hasBit mask p = true := by
        obtain ⟨k, hget⟩ := List.mem_iff_getElem?.1 (mem_prog_of_currentItem hc)
        rw [prog, h.pk] at hget
        obtain ⟨-, -, e⟩ := closeProg_cases hget
        cases e
        rw [Pins.get_ofFn, h.hCmask] at hops
        by_contra hno
        rw [if_neg hno] at hops
        cases hops
      rw [hop]
      simp [hrsp, hmask, hu, levelAfter]
    | none =>
      have hpend : (hasBit (beginTick s).pend p && (rsp.get p).isNone) = hasBit s.pend p := by
        unfold answer at ha
        rw [beginTick_pend] at ha ⊢
        cases hb : hasBit s.pend p
        · rfl
        · rw [hb, if_pos rfl] at ha; rw [ha]; rfl
      rw [hpend]
      exact hl
  started s item hi h hp hf hitem := by
    refine ⟨(startItem_pk _ _).trans h.pk, (startItem_hCmask _ _).trans h.hCmask, fun p => ?_⟩
    rw [prog, h.pk, h.hCmask] at hitem
    obtain ⟨h0, -, rfl⟩ := closeProg_cases hitem
    have hu : s.upc = 0#7 := BitVec.eq_of_toNat_eq h0
    rw [startItem_lvl, h.lvl p, startItem_group_pend, Pins.get_ofFn, hu]
    cases hasBit mask p <;> simp

/-- Settles O36: the channels of the mask have answered when CLOSE ends, and where CLOSE had none nothing was open. -/
theorem closeReleasesOpenChannels : Obligations.CloseReleasesOpenChannels := by
  unfold Obligations.CloseReleasesOpenChannels
  intro s t u ins hi hm hk he hr hrun
  have hload : exec .close s = .next (loadRequest .close s) := exec_loads hk rfl (hm.imp id fun h => ⟨h, rfl⟩)
  cases hload.symm.trans he
  have hit : BlockInv (loadRequest .close s) := loadRequest_inv hi hk rfl (hm.imp id fun h => ⟨h, rfl⟩)
  have start : Releasing s.lvl s.opened (loadRequest .close s) := ⟨rfl, rfl, fun p => by simp⟩
  obtain ⟨v, hiv, hj, -, hp, hend, hu⟩ :=
    (releasing_kept s.lvl s.opened).runToIdle hit start (programKind_ne_none .close) hr hrun
  have hfin : u = finish v.fault v :=
    hu.resolve_right fun ⟨hinit, _⟩ => absurd ((hiv.pk_of_init hinit).symm.trans hj.pk) (by decide)
  have hopened : v.opened = 0#6 := hiv.opened_at_closeEnd hj.pk hp hend
  rw [hfin, finish_mode, finish_opened, finish_hCmask, finish_lvl, finish_history, finish_now, hj.pk]
  refine ⟨rfl, hopened, hj.hCmask, fun p => ?_, ?_⟩
  · have unmasked : v.upc = 0#7 → hasBit s.opened p = false := by
      intro h0
      have hf : v.fault = false := hiv.fresh (by rw [hj.pk]; decide) h0
      have hlen : (prog v).length = 0 := by
        rw [← hend.resolve_left (by simp [hf]), h0]; rfl
      rw [prog, hj.pk, hj.hCmask, List.length_eq_zero_iff] at hlen
      by_contra hb
      have hne : s.opened ≠ 0#6 := fun e => hb (by rw [e, hasBit_zero])
      simp [closeProg, hne] at hlen
    rw [hj.lvl p, hp, hasBit_zero]
    by_cases h0 : v.upc = 0#7
    · simp [h0, unmasked h0]
    · simp [h0]
  · cases v.fault <;> simp

end Sys2Proof.Machine
end

section
/-! What the items of a program do to the lines and the strobes when every transaction answers OK, and how far a run under
any answers follows it (R76, R172 to R174, R192 to R197, R241 to R250). -/

namespace Sys2Proof.Machine

/-! ### The lines after some items -/

/-- The recorded levels and the strobes so far. -/
structure Lines where
  lvl : Pins Lvl
  strobes : List Strobe

/-- The levels after a group whose members all answer OK (R76). -/
def groupLevels (ops : Pins (Option PinOp)) (lvl : Pins Lvl) : Pins Lvl :=
  Pins.ofFn fun p => match ops.get p with
    | some op => levelAfter op .ok (lvl.get p)
    | none => lvl.get p

/-- An item whose transactions all answer OK; an E-high write adds its strobe. -/
def runItem (a : Lines) : Item → Lines
  | .wait _ => a
  | .group ops =>
    { lvl := groupLevels ops a.lvl
      strobes := if ops.get .e = some (.write true) then a.strobes ++ [strobeOf (groupLevels ops a.lvl)] else a.strobes }

/-- Items one after another. -/
def runItems (items : List Item) (a : Lines) : Lines := items.foldl runItem a

theorem runItems_append (xs ys : List Item) (a : Lines) : runItems (xs ++ ys) a = runItems ys (runItems xs a) :=
  List.foldl_append ..

/-- The lines after the first `k + 1` items, from those after the first `k`. -/
theorem runItems_take_succ {items : List Item} {k : Nat} {item : Item} (h : items[k]? = some item) (a : Lines) :
    runItems (items.take (k + 1)) a = runItem (runItems (items.take k) a) item := by
  obtain ⟨hk, rfl⟩ := List.getElem?_eq_some_iff.1 h
  rw [← List.take_append_getElem hk, runItems_append]
  rfl

theorem runItem_strobes_prefix (a : Lines) (item : Item) : a.strobes <+: (runItem a item).strobes := by
  cases item with
  | wait n => exact List.prefix_rfl
  | group ops =>
    unfold runItem
    dsimp only
    split
    · exact List.prefix_append _ _
    · exact List.prefix_rfl

theorem runItems_strobes_prefix (items : List Item) (a : Lines) : a.strobes <+: (runItems items a).strobes := by
  induction items generalizing a with
  | nil => exact List.prefix_rfl
  | cons item items ih => exact (runItem_strobes_prefix a item).trans (ih (runItem a item))

/-- The strobes of a first part of the items are a first part of the strobes. -/
theorem runItems_take_strobes_prefix (items : List Item) (k : Nat) (a : Lines) :
    (runItems (items.take k) a).strobes <+: (runItems items a).strobes := by
  conv_rhs => rw [← List.take_append_drop k items, runItems_append]
  exact runItems_strobes_prefix _ _

/-- NIBBLE puts the nibble on the data lines, lowers E, and strobes once (R170, R173). -/
theorem runItems_nibble (c : Params) (v : Nibble) (a : Lines) : runItems (nibble c v) a =
    { lvl := { rs := a.lvl.rs, e := .low
               d0 := Lvl.ofBool (lineBit v 0), d1 := Lvl.ofBool (lineBit v 1)
               d2 := Lvl.ofBool (lineBit v 2), d3 := Lvl.ofBool (lineBit v 3) }
      strobes := a.strobes ++ [nibbleStrobe a.lvl.rs v] } := rfl

theorem runItems_settle (c : Params) (st : Bool) (a : Lines) : runItems (settle c st) a = a := by
  cases st <;> rfl

/-- FRAME strobes the high nibble and then the low one, both under its RS (R190, R197). -/
theorem runItems_frame (c : Params) (b : Byte) (m : Bool) (a : Lines) : runItems (frame c b m) a =
    { lvl := { rs := Lvl.ofBool m, e := .low
               d0 := Lvl.ofBool (lineBit (loNibble b) 0), d1 := Lvl.ofBool (lineBit (loNibble b) 1)
               d2 := Lvl.ofBool (lineBit (loNibble b) 2), d3 := Lvl.ofBool (lineBit (loNibble b) 3) }
      strobes := a.strobes ++
        [nibbleStrobe (Lvl.ofBool m) (hiNibble b), nibbleStrobe (Lvl.ofBool m) (loNibble b)] } := by
  have e : runItems (frame c b m) a = runItems (nibble c (hiNibble b) ++ nibble c (loNibble b)) (runItem a (writeOne .rs m)) :=
    rfl
  rw [e, runItems_append, runItems_nibble, runItems_nibble, List.append_assoc]
  rfl

/-! ### E-high writes stand alone in their group -/

/-- If the item is a group that raises E, it has no other member. -/
def StrobesAlone : Item → Prop
  | .group ops => ops.get .e = some (.write true) → ∀ p, p ≠ .e → ops.get p = none
  | .wait _ => True

theorem strobesAlone_writeE (level : Bool) : StrobesAlone (writeOne .e level) := by
  intro _ p hp
  rw [Pins.get_set, if_neg hp, noOps, Pins.get_const]

theorem strobesAlone_prog (s : State) : ∀ item ∈ prog s, StrobesAlone item := by
  have quietE : ∀ ops : Pins (Option PinOp), ops.get .e ≠ some (.write true) → StrobesAlone (.group ops) :=
    fun ops h h' => absurd h' h
  have data : ∀ v, StrobesAlone (dataGroup v) := fun v => quietE _ nofun
  have rs : ∀ m, StrobesAlone (writeOne .rs m) := fun m => quietE _ nofun
  have wait : ∀ n, StrobesAlone (.wait n) := fun _ => trivial
  unfold prog
  cases s.pk with
  | none => exact fun _ h => by cases h
  | init => exact forall_initProg (quietE _ nofun) (quietE _ (by decide)) (rs false) data strobesAlone_writeE wait
  | nib => exact List.forall_mem_append.2 ⟨forall_nibble (data _) strobesAlone_writeE (wait _), forall_settle wait⟩
  | frame => exact List.forall_mem_append.2 ⟨forall_frame (rs _) data strobesAlone_writeE (wait _), forall_settle wait⟩
  | close =>
    intro item h
    obtain ⟨k, hget⟩ := List.mem_iff_getElem?.1 h
    obtain ⟨-, -, rfl⟩ := closeProg_cases hget
    refine quietE _ ?_
    rw [Pins.get_ofFn]
    split <;> nofun

/-! ### The strobes of phase 1 -/

/-- A sample adds a strobe exactly where an E-high write answers OK. -/
theorem sample_strobes {s : State} (ha : HistoryAgrees s) (rsp : Pins (Option PinStatus)) (p : Chan) :
    strobes (sample rsp s p).history = strobes s.history ++
      if p = .e ∧ s.txn.get p = .write true ∧ answer rsp s p = some .ok then [strobeOf (sample rsp s p).lvl] else [] := by
  unfold sample answer
  cases hr : rsp.get p with
  | none => simp
  | some st =>
    cases hb : hasBit s.pend p with
    | false => simp
    | true =>
      simp only [if_true, Option.some.injEq]
      unfold strobes
      rw [complete_history, replay_snoc, complete_lvl, ← ha.txn, ← ha.lvl]
      simp only [Replay.read]
      split <;> simp

/-- Phase 1 adds a strobe exactly where an E-high write answers OK; when it is outstanding alone, the strobe sees the levels
that phase 1 leaves. -/
theorem phase1_strobes {s : State} (ha : HistoryAgrees s) (rsp : Pins (Option PinStatus))
    (alone : hasBit s.pend .e = true → s.txn.get .e = .write true → ∀ p, p ≠ .e → hasBit s.pend p = false) :
    strobes (phase1 rsp s).history = strobes s.history ++
      if s.txn.get .e = .write true ∧ answer rsp s .e = some .ok then [strobeOf (phase1 rsp s).lvl] else [] := by
  have other : ∀ {s : State} (p : Chan), HistoryAgrees s → p ≠ .e →
      strobes (sample rsp s p).history = strobes s.history := fun p ha hp => by
    rw [sample_strobes ha, if_neg (by simp [hp]), List.append_nil]
  have a1 := sample_agrees rsp s .rs ha
  have a2 := sample_agrees rsp _ .e a1
  have a3 := sample_agrees rsp _ .d0 a2
  have a4 := sample_agrees rsp _ .d1 a3
  have a5 := sample_agrees rsp _ .d2 a4
  have hstep : strobes (phase1 rsp s).history = strobes (sample rsp (sample rsp s .rs) .e).history := by
    simp only [phase1, Chan.all, List.foldl]
    rw [other .d3 a5 (by decide), other .d2 a4 (by decide), other .d1 a3 (by decide), other .d0 a2 (by decide)]
  rw [hstep, sample_strobes a1, other .rs ha (by decide), sample_txn, sample_answer rsp s .rs .e (by decide)]
  by_cases h : s.txn.get .e = .write true ∧ answer rsp s .e = some .ok
  · have hno : ∀ p, p ≠ .e → answer rsp s p = none := fun p hp => by
      rw [answer, alone (answer_some h.2).1 h.1 p hp]; rfl
    have hlvl : strobeOf (sample rsp (sample rsp s .rs) .e).lvl = strobeOf (phase1 rsp s).lvl := by
      have same : ∀ p, p ≠ .e → (sample rsp (sample rsp s .rs) .e).lvl.get p = (phase1 rsp s).lvl.get p := by
        intro p hp
        rw [sample_lvl, if_neg hp, sample_lvl, phase1_lvl, hno p hp]
        split
        · rw [hno .rs (by decide)]; simp_all
        · rfl
      have h0 := same .rs (by decide)
      have h1 := same .d0 (by decide)
      have h2 := same .d1 (by decide)
      have h3 := same .d2 (by decide)
      have h4 := same .d3 (by decide)
      simp only [Pins.get] at h0 h1 h2 h3 h4
      simp only [strobeOf, h0, h1, h2, h3, h4]
    rw [if_pos ⟨rfl, h.1, h.2⟩, if_pos h, hlvl]
  · rw [if_neg fun h' => h h'.2, if_neg h]

end Sys2Proof.Machine
end

section
/-! How far a run has come (R172 to R174, R196, R197, R241 to R250): while no fault is latched, the lines are those after the
items that are complete; the strobes are those of a first part of the items even then. -/

namespace Sys2Proof.Machine

/-- The lines after the items before the one started last. -/
def linesBefore (a : Lines) (s : State) : Lines := runItems ((prog s).take (s.upc.toNat - 1)) a

/-- The lines after all items that have started. -/
def linesAfter (a : Lines) (s : State) : Lines := runItems ((prog s).take s.upc.toNat) a

/-- The program `items` of kind `k`, begun at the lines `a`, has come to `s`. -/
structure Progress (items : List Item) (k : Pk) (a : Lines) (s : State) : Prop where
  pk : s.pk = k
  prog : prog s = items
  agrees : HistoryAgrees s
  /-- without a fault, an outstanding channel has the level before its item, every other one the level after -/
  lvl : s.fault = false → ∀ p,
    s.lvl.get p = if hasBit s.pend p = true then (linesBefore a s).lvl.get p else (linesAfter a s).lvl.get p
  /-- without a fault, the item's strobe comes with E's answer -/
  strobes : s.fault = false →
    strobes s.history = if hasBit s.pend .e = true then (linesBefore a s).strobes else (linesAfter a s).strobes
  /-- with a fault, the strobe of the last item is there or not -/
  faulted : Machine.strobes s.history = (linesBefore a s).strobes ∨ Machine.strobes s.history = (linesAfter a s).strobes
  /-- an E-high write is alone in flight, so no fault is latched beside it -/
  strobing : hasBit s.pend .e = true → s.txn.get .e = .write true → s.fault = false
  /-- a channel that no item names keeps its level -/
  untouched : ∀ p, (∀ ops, Item.group ops ∈ items → ops.get p = none) → s.lvl.get p = a.lvl.get p

/-- A program that has just been loaded has come nowhere yet. -/
theorem Progress.start {s : State} (hi : BlockInv s) (ha : HistoryAgrees s) (hk : s.pk ≠ .none) (hu : s.upc = 0#7) :
    Progress (Machine.prog s) s.pk { lvl := s.lvl, strobes := Machine.strobes s.history } s := by
  have before : linesBefore { lvl := s.lvl, strobes := Machine.strobes s.history } s =
      { lvl := s.lvl, strobes := Machine.strobes s.history } := by rw [linesBefore, hu]; rfl
  have after : linesAfter { lvl := s.lvl, strobes := Machine.strobes s.history } s =
      { lvl := s.lvl, strobes := Machine.strobes s.history } := by rw [linesAfter, hu]; rfl
  constructor
  case pk => rfl
  case prog => rfl
  case agrees => exact ha
  case lvl => intro _ p; rw [before, after, ite_self]
  case strobes => intro _; rw [before, after, ite_self]
  case faulted => rw [before]; exact .inl rfl
  case strobing => exact fun _ _ => hi.fresh hk hu
  case untouched => exact fun _ _ => rfl

/-- Progress looks at these fields only. -/
theorem Progress.congr {items : List Item} {k : Pk} {a : Lines} {s t : State} (h : Progress items k a s) (hk : t.pk = s.pk)
    (hprog : Machine.prog t = Machine.prog s) (ha : HistoryAgrees t) (hstrobes : Machine.strobes t.history = Machine.strobes s.history)
    (hfault : t.fault = s.fault) (hupc : t.upc = s.upc) (hpend : t.pend = s.pend) (htxn : t.txn = s.txn)
    (hlvl : t.lvl = s.lvl) : Progress items k a t := by
  have before : linesBefore a t = linesBefore a s := by rw [linesBefore, linesBefore, hprog, hupc]
  have after : linesAfter a t = linesAfter a s := by rw [linesAfter, linesAfter, hprog, hupc]
  constructor
  case pk => rw [hk, h.pk]
  case prog => rw [hprog, h.prog]
  case agrees => exact ha
  case lvl => rw [hfault, hlvl, hpend, before, after]; exact h.lvl
  case strobes => rw [hfault, hstrobes, hpend, before, after]; exact h.strobes
  case faulted => rw [hstrobes, before, after]; exact h.faulted
  case strobing => rw [hpend, htxn, hfault]; exact h.strobing
  case untouched => rw [hlvl]; exact h.untouched

/-- The lines after the current group, from those before it. -/
theorem linesAfter_of_current {a : Lines} {s : State} {item : Item} (h : currentItem s = some item) :
    linesAfter a s = runItem (linesBefore a s) item := by
  unfold currentItem at h
  split at h
  · cases h
  · rename_i h0
    have hpos : s.upc.toNat = s.upc.toNat - 1 + 1 := by
      have : s.upc.toNat ≠ 0 := fun e => h0 (BitVec.eq_of_toNat_eq e)
      omega
    rw [linesAfter, linesBefore, hpos, runItems_take_succ h, Nat.add_sub_cancel]

/-- An E-high write in flight is alone in flight. -/
theorem BlockInv.strobe_alone {s : State} (hi : BlockInv s) (hp : hasBit s.pend .e = true)
    (ht : s.txn.get .e = .write true) {p : Chan} (hne : p ≠ .e) : hasBit s.pend p = false := by
  obtain ⟨ops, hc, hops⟩ := hi.outstanding .e hp
  have halone : StrobesAlone (.group ops) := strobesAlone_prog s _ (mem_prog_of_currentItem hc)
  by_contra hb
  obtain ⟨ops', hc', hops'⟩ := hi.outstanding p (by simpa using hb)
  cases hc.symm.trans hc'
  rw [halone (hops.trans (by rw [ht])) p hne] at hops'
  cases hops'

/-- With an E-high write in flight, only E's answer can latch a fault. -/
theorem BlockInv.fault_of_strobe {s : State} (hi : BlockInv s) (hp : hasBit s.pend .e = true)
    (ht : s.txn.get .e = .write true) {rsp : Pins (Option PinStatus)} (ha : answer rsp s .e ≠ some .fault) :
    (phase1 rsp s).fault = s.fault := by
  have noFault : ∀ p, answer rsp s p ≠ some .fault := by
    intro p
    by_cases hpe : p = .e
    · rw [hpe]; exact ha
    · simp [answer, hi.strobe_alone hp ht hpe]
  simp [phase1_fault, noFault]

/-- The level of a channel whose transaction answers OK is the level after its item. -/
theorem BlockInv.level_after {s : State} (hi : BlockInv s) {p : Chan} (hp : hasBit s.pend p = true) {a : Lines} {l : Lvl}
    (hl : l = (linesBefore a s).lvl.get p) : levelAfter (s.txn.get p) .ok l = (linesAfter a s).lvl.get p := by
  obtain ⟨ops, hc, hops⟩ := hi.outstanding p hp
  rw [linesAfter_of_current hc, hl]
  simp only [runItem, groupLevels, Pins.get_ofFn, hops]

/-- No fault is latched after phase 1 exactly when none was before and no answer is a FAULT. -/
theorem phase1_fault_eq_false {rsp : Pins (Option PinStatus)} {s : State} (h : (phase1 rsp s).fault = false) :
    s.fault = false ∧ ∀ p st, answer rsp s p = some st → st = .ok := by
  rw [phase1_fault, Bool.or_eq_false_iff, List.any_eq_false] at h
  refine ⟨h.1, fun p st ha => ?_⟩
  cases st with
  | ok => rfl
  | fault => exact absurd (decide_eq_true ha) (h.2 p (Chan.mem_all p))

/-- A channel without an answer stays as outstanding as it was. -/
theorem phase1_pend_of_no_answer {rsp : Pins (Option PinStatus)} {s : State} {p : Chan} (h : answer rsp s p = none) :
    hasBit (phase1 rsp s).pend p = hasBit s.pend p := by
  unfold answer at h
  rw [phase1_pend]
  cases hb : hasBit s.pend p with
  | false => rfl
  | true => rw [hb, if_pos rfl] at h; rw [h]; rfl

theorem phase1_pend_of_answer {rsp : Pins (Option PinStatus)} {s : State} {p : Chan} {st : PinStatus}
    (h : answer rsp s p = some st) : hasBit (phase1 rsp s).pend p = false := by
  rw [phase1_pend, (answer_some h).2]
  simp

/-- Where no fault is latched after phase 1, the levels follow the answers. -/
theorem Progress.phase1_lvl {items : List Item} {k : Pk} {a : Lines} {s : State} (h : Progress items k a s)
    (hi : BlockInv s) (rsp : Pins (Option PinStatus)) (hf : (phase1 rsp s).fault = false) (p : Chan) :
    (phase1 rsp s).lvl.get p =
      if hasBit (phase1 rsp s).pend p = true then (linesBefore a s).lvl.get p else (linesAfter a s).lvl.get p := by
  obtain ⟨hf0, hok⟩ := phase1_fault_eq_false hf
  rw [Machine.phase1_lvl]
  cases ha : answer rsp s p with
  | none => rw [phase1_pend_of_no_answer ha]; exact h.lvl hf0 p
  | some st =>
    obtain ⟨hp, -⟩ := answer_some ha
    rw [phase1_pend_of_answer ha, hok p st ha]
    exact hi.level_after hp (by rw [h.lvl hf0 p, if_pos hp])

/-- E's answer brings the strobe of its item: an E-high write that answers OK adds the one strobe of the item, and any other
OK adds none. -/
theorem Progress.phase1_strobes {items : List Item} {k : Pk} {a : Lines} {s : State} (h : Progress items k a s)
    (hi : BlockInv s) (rsp : Pins (Option PinStatus)) :
    Machine.strobes (phase1 rsp s).history = Machine.strobes s.history ∧
        (answer rsp s .e = some .ok → (linesAfter a s).strobes = (linesBefore a s).strobes) ∨
      answer rsp s .e = some .ok ∧ Machine.strobes s.history = (linesBefore a s).strobes ∧
        Machine.strobes (phase1 rsp s).history = (linesAfter a s).strobes := by
  have hs := Machine.phase1_strobes h.agrees rsp fun hp ht p hne => hi.strobe_alone hp ht hne
  by_cases hcase : s.txn.get .e = .write true ∧ answer rsp s .e = some .ok
  · obtain ⟨ht, hans⟩ := hcase
    obtain ⟨hp, -⟩ := answer_some hans
    have hf : s.fault = false := h.strobing hp ht
    have hbefore : Machine.strobes s.history = (linesBefore a s).strobes := by rw [h.strobes hf, if_pos hp]
    have hf1 : (phase1 rsp s).fault = false := by
      rw [hi.fault_of_strobe hp ht (by rw [hans]; decide), hf]
    have hlvl : (phase1 rsp s).lvl = (linesAfter a s).lvl := by
      apply Pins.ext_get
      intro p
      rw [h.phase1_lvl hi rsp hf1 p]
      by_cases hpe : p = .e
      · rw [hpe, phase1_pend_of_answer hans]; rfl
      · rw [Machine.phase1_pend, hi.strobe_alone hp ht hpe]; rfl
    obtain ⟨ops, hc, hops⟩ := hi.outstanding .e hp
    rw [ht] at hops
    refine .inr ⟨hans, hbefore, ?_⟩
    rw [hs, if_pos ⟨ht, hans⟩, hlvl, linesAfter_of_current hc, hbefore]
    simp only [runItem, hops, if_true]
  · refine .inl ⟨by rw [hs, if_neg hcase, List.append_nil], fun hans => ?_⟩
    obtain ⟨hp, -⟩ := answer_some hans
    obtain ⟨ops, hc, hops⟩ := hi.outstanding .e hp
    have hne : ops.get .e ≠ some (.write true) := fun e => hcase ⟨Option.some.inj (hops.symm.trans e), hans⟩
    rw [linesAfter_of_current hc]
    simp only [runItem, if_neg hne]

theorem Progress.sampled {items : List Item} {k : Pk} {a : Lines} {s : State} (h : Progress items k a s) (hi : BlockInv s)
    (rsp : Pins (Option PinStatus)) : Progress items k a (phase1 rsp s) := by
  have before : linesBefore a (phase1 rsp s) = linesBefore a s := by rw [linesBefore, phase1_prog, phase1_upc]; rfl
  have after : linesAfter a (phase1 rsp s) = linesAfter a s := by rw [linesAfter, phase1_prog, phase1_upc]; rfl
  have hstrobes := h.phase1_strobes hi rsp
  constructor
  case pk => rw [phase1_pk, h.pk]
  case prog => rw [phase1_prog, h.prog]
  case agrees => exact phase1_agrees rsp h.agrees
  case lvl => rw [before, after]; exact h.phase1_lvl hi rsp
  case strobes =>
    intro hf
    rw [before, after]
    obtain ⟨hf0, hok⟩ := phase1_fault_eq_false hf
    obtain ⟨hsame, hnone⟩ | ⟨hans, -, hadd⟩ := hstrobes
    · rw [hsame]
      cases ha : answer rsp s .e with
      | none => rw [phase1_pend_of_no_answer ha]; exact h.strobes hf0
      | some st =>
        rw [hok .e st ha] at ha
        rw [phase1_pend_of_answer ha, h.strobes hf0, if_pos (answer_some ha).1, ← hnone ha]
        rfl
    · rw [hadd, phase1_pend_of_answer hans]; rfl
  case faulted =>
    rw [before, after]
    obtain ⟨hsame, -⟩ | ⟨-, -, hadd⟩ := hstrobes
    · rw [hsame]; exact h.faulted
    · exact .inr hadd
  case strobing =>
    intro hp ht
    rw [phase1_txn] at ht
    have hnone : answer rsp s .e = none := by
      cases ha : answer rsp s .e with
      | none => rfl
      | some st => rw [phase1_pend_of_answer ha] at hp; cases hp
    rw [phase1_pend_of_no_answer hnone] at hp
    rw [hi.fault_of_strobe hp ht (by rw [hnone]; decide), h.strobing hp ht]
  case untouched =>
    intro p hno
    rw [Machine.phase1_lvl]
    cases ha : answer rsp s p with
    | none => exact h.untouched p hno
    | some st =>
      obtain ⟨ops, hc, hops⟩ := hi.outstanding p (answer_some ha).1
      have hmem := mem_prog_of_currentItem hc
      rw [h.prog] at hmem
      rw [hno ops hmem] at hops
      cases hops

/-- Issues make no strobe. -/
theorem strobes_issues {evs : List Event} (h : ∀ ev ∈ evs, ∃ t p op, ev = .issue t p op) (m : Replay) :
    (evs.foldl Replay.read m).strobes = m.strobes := by
  induction evs generalizing m with
  | nil => rfl
  | cons ev evs ih =>
    obtain ⟨t, p, op, rfl⟩ := h ev (List.mem_cons_self ..)
    exact ih (fun ev hev => h ev (List.mem_cons_of_mem _ hev)) _

theorem startItem_strobes (item : Item) (s : State) : strobes (startItem item s).history = strobes s.history := by
  rw [startItem_history, strobes, replay_append]
  cases item with
  | wait n => rfl
  | group ops =>
    refine strobes_issues (fun ev hev => ?_) _
    obtain ⟨p, op, e, -⟩ := mem_groupEvents.1 hev
    exact ⟨_, p, op, e⟩

theorem Progress.started {items : List Item} {k : Pk} {a : Lines} {s : State} {item : Item} (h : Progress items k a s)
    (hp : s.pend = 0#6) (hf : s.fault = false) (hitem : (Machine.prog s)[s.upc.toNat]? = some item) :
    Progress items k a (startItem item s) := by
  obtain ⟨hu, -⟩ := upc_succ hitem
  have no_pend : ∀ p, hasBit s.pend p = false := ChanSet.eq_zero_iff.1 hp
  have before : linesBefore a (startItem item s) = linesAfter a s := by
    rw [linesBefore, linesAfter, startItem_prog, startItem_upc, hu, Nat.add_sub_cancel]
  have after : linesAfter a (startItem item s) = runItem (linesAfter a s) item := by
    rw [linesAfter, linesAfter, startItem_prog, startItem_upc, hu, runItems_take_succ hitem]
  have hlvl : ∀ p, s.lvl.get p = (linesAfter a s).lvl.get p := fun p => by
    rw [h.lvl hf p, no_pend p]; rfl
  have hstrobes : Machine.strobes (startItem item s).history = (linesAfter a s).strobes := by
    rw [startItem_strobes, h.strobes hf, no_pend]; rfl
  constructor
  case pk => rw [startItem_pk, h.pk]
  case prog => rw [startItem_prog, h.prog]
  case agrees => exact startItem_agrees item h.agrees
  case lvl =>
    intro _ p
    rw [startItem_lvl, before, after, hlvl p]
    cases item with
    | wait n => rw [startItem_wait_pend, no_pend]; rfl
    | group ops =>
      rw [startItem_group_pend, no_pend, Bool.false_or]
      cases ho : ops.get p with
      | some op => rfl
      | none => simp [runItem, groupLevels, ho]
  case strobes =>
    intro _
    rw [hstrobes, before, after]
    cases item with
    | wait n => rw [startItem_wait_pend, no_pend]; rfl
    | group ops =>
      rw [startItem_group_pend, no_pend, Bool.false_or]
      cases ho : ops.get .e with
      | some op => rfl
      | none => simp [runItem, ho]
  case faulted => rw [hstrobes, before]; exact .inl rfl
  case strobing => intro _ _; rw [startItem_fault, hf]
  case untouched => rw [startItem_lvl]; exact h.untouched

theorem progress_kept (items : List Item) (k : Pk) (a : Lines) : KeptByRun (Progress items k a) where
  sampled s rsp hi h :=
    Progress.sampled (s := beginTick s)
      (h.congr rfl rfl (h.agrees.congr rfl rfl rfl rfl rfl) rfl rfl rfl rfl rfl rfl) (beginTick_inv hi) rsp
  waited _ _ h := h.congr rfl rfl (h.agrees.congr rfl rfl rfl rfl rfl) rfl rfl rfl rfl rfl rfl
  started _ _ _ h hp hf hitem := h.started hp hf hitem
  rejected _ st h := h.congr rfl rfl (raiseError_agrees st h.agrees) (congrArg Replay.strobes (replay_snoc _ _)) rfl rfl rfl
    rfl rfl

/-- Where a program that began at `a` ends: the lines and strobes of all its items when no fault is latched, and in any case
the strobes of a first part of them. -/
theorem Progress.at_end {items : List Item} {k : Pk} {a : Lines} {v : State} (h : Progress items k a v) (hp : v.pend = 0#6)
    (hend : v.fault = true ∨ v.upc.toNat = (Machine.prog v).length) :
    (v.fault = false → v.lvl = (runItems items a).lvl ∧ Machine.strobes v.history = (runItems items a).strobes) ∧
      a.strobes <+: Machine.strobes v.history ∧ Machine.strobes v.history <+: (runItems items a).strobes := by
  have no_pend : ∀ p, hasBit v.pend p = false := ChanSet.eq_zero_iff.1 hp
  refine ⟨fun hf => ?clean, ?part⟩
  case clean =>
    have hall : linesAfter a v = runItems items a := by
      rw [linesAfter, hend.resolve_left (by simp [hf]), List.take_length, h.prog]
    rw [← hall]
    refine ⟨Pins.ext_get fun p => ?_, ?_⟩
    · rw [h.lvl hf p, no_pend]; rfl
    · rw [h.strobes hf, no_pend]; rfl
  case part =>
    have first : ∀ n, a.strobes <+: (runItems ((Machine.prog v).take n) a).strobes ∧
        (runItems ((Machine.prog v).take n) a).strobes <+: (runItems items a).strobes := fun n => by
      refine ⟨runItems_strobes_prefix _ _, ?_⟩
      rw [h.prog]
      exact runItems_take_strobes_prefix _ _ _
    obtain e | e := h.faulted <;> rw [e]
    · exact first _
    · exact first _

end Sys2Proof.Machine
end

section
/-! The requests that send and INIT, to their finish. -/

namespace Sys2Proof.Machine

/-- A program that has ended in a mode other than INIT has finished and nothing more. -/
theorem EndedFrom.send {J : State → Prop} {u : State} (h : EndedFrom J u) (hk : ∀ v, J v → v.pk = .nib ∨ v.pk = .frame) :
    ∃ v, BlockInv v ∧ J v ∧ v.mode = .ready ∧ v.pend = 0#6 ∧ (v.fault = true ∨ v.upc.toNat = (prog v).length) ∧
      u = finish v.fault v := by
  obtain ⟨v, hiv, hj, -, hp, hend, hu⟩ := h
  have hm : v.mode = .ready := hiv.mode_of_send (hk v hj)
  refine ⟨v, hiv, hj, hm, hp, hend, hu.resolve_right fun ⟨hinit, _⟩ => ?_⟩
  rw [hm] at hinit
  cases hinit

/-- NIB, CMD and DATA from READY to their finish: READY again with `opened` and `istate` as before, and either OK with the
lines and strobes of the program, or PinFault with a first part of its strobes; a channel that no item names keeps its
level. -/
theorem send_ends {s u : State} {r : Instr} {ins : List TickIn} (hi : BlockInv s) (ha : HistoryAgrees s)
    (hm : s.mode = .ready) (hk : s.pk = .none) (hw : r.wellFormed = true)
    (hkind : programKind r = .nib ∨ programKind r = .frame) (hr : NoReset ins)
    (hrun : runToIdle ins (loadRequest r s) = some u) :
    let a : Lines := { lvl := s.lvl, strobes := strobes s.history }
    let items := programOf s.params s.opened r
    u.mode = .ready ∧ u.opened = s.opened ∧ u.istate = s.istate ∧
      (∀ p, (∀ ops, Item.group ops ∈ items → ops.get p = none) → u.lvl.get p = s.lvl.get p) ∧
      ((u.history.getLast? = some (.response u.now .ok) ∧ u.lvl = (runItems items a).lvl ∧
          strobes u.history = (runItems items a).strobes) ∨
        (u.history.getLast? = some (.response u.now .pinFault) ∧ a.strobes <+: strobes u.history ∧
          strobes u.history <+: (runItems items a).strobes)) := by
  intro a items
  have hit : BlockInv (loadRequest r s) := loadRequest_inv hi hk hw (.inl hm)
  have hat : HistoryAgrees (loadRequest r s) :=
    ha.congr (by rw [loadRequest_history]) (loadRequest_pend r s) (loadRequest_opened r s) (loadRequest_txn r s)
      (loadRequest_lvl r s)
  have start : Progress items (programKind r) a (loadRequest r s) := by
    have loaded := Progress.start hit hat (by rw [loadRequest_pk]; exact programKind_ne_none r) (loadRequest_upc r s)
    rwa [prog_loadRequest, loadRequest_pk, loadRequest_lvl, loadRequest_history] at loaded
  obtain ⟨v, hiv, hj, hmv, hp, hend, rfl⟩ := EndedFrom.send
    ((progress_kept items (programKind r) a).runToIdle hit start (by rw [loadRequest_pk]; exact programKind_ne_none r) hr hrun)
    fun v hj => by rw [hj.pk]; exact hkind
  have hpk : v.pk = .nib ∨ v.pk = .frame := by rw [hj.pk]; exact hkind
  have hkc : v.pk ≠ .close := by obtain e | e := hpk <;> rw [e] <;> decide
  have hfin : (finish v.fault v).mode = .ready ∧ (finish v.fault v).istate = v.istate ∧
      (finish v.fault v).history = v.history ++ [.response v.now (if v.fault then .pinFault else .ok)] := by
    rw [finish_mode, finish_istate, finish_history]
    obtain e | e := hpk <;> rw [e] <;> cases v.fault <;> exact ⟨hmv, rfl, rfl⟩
  obtain ⟨hmode, histate, hhist⟩ := hfin
  obtain ⟨hclean, hfrom, hto⟩ := hj.at_end hp hend
  have hstrobes : strobes (finish v.fault v).history = strobes v.history := congrArg Replay.strobes (replay_finish _ v)
  rw [hstrobes, hmode, finish_opened, histate, finish_lvl, hhist, finish_now]
  refine ⟨rfl, ?_, ?_, hj.untouched, ?_⟩
  · rw [hiv.readyOpen hmv hkc, hi.readyOpen hm (by rw [hk]; decide)]
  · rw [hiv.istateReady hmv, hi.istateReady hm]
  · cases hf : v.fault with
    | false => exact .inl ⟨by simp, hclean hf⟩
    | true => exact .inr ⟨by simp, hfrom, hto⟩

/-- A list between another one and that one with a tail is that one with a first part of the tail. -/
theorem prefix_between {α : Type} {a x l : List α} (h : a <+: x) (h' : x <+: a ++ l) : ∃ l', x = a ++ l' ∧ l' <+: l := by
  obtain ⟨l', rfl⟩ := h
  exact ⟨l', rfl, (List.prefix_append_right_inj a).1 h'⟩

theorem prefix_singleton {α : Type} {l : List α} {x : α} (h : l <+: [x]) : l = [] ∨ l = [x] := by
  obtain rfl | ⟨t, rfl, ht⟩ := List.prefix_cons_iff.1 h
  · exact .inl rfl
  · rw [List.prefix_nil.1 ht]; exact .inr rfl

/-- The item has no member on the channel. -/
def Leaves (p : Chan) : Item → Prop
  | .group ops => ops.get p = none
  | .wait _ => True

/-- NIB names no RS (R170). -/
theorem programOf_nib_leaves_rs (c : Params) (m : ChanSet) (v : Byte) (st : Bool) :
    ∀ item ∈ programOf c m (.nib v st), Leaves .rs item := by
  have data : Leaves .rs (dataGroup (v.setWidth 4)) := rfl
  have enable : ∀ level, Leaves .rs (writeOne .e level) := fun _ => rfl
  have wait : ∀ n, Leaves .rs (.wait n) := fun _ => trivial
  rw [programOf]
  exact List.forall_mem_append.2 ⟨forall_nibble data enable (wait _), forall_settle wait⟩

/-- Settles O34: NIB's program has the one strobe of its nibble, and names no RS. -/
theorem nibSendsOneNibble : Obligations.NibSendsOneNibble := by
  unfold Obligations.NibSendsOneNibble
  intro s t u v st ins hi ha hm hk hv he hr hrun
  have hw : (Instr.nib v st).wellFormed = true := decide_eq_true hv
  cases (exec_loads hk hw (.inl hm)).symm.trans he
  obtain ⟨hmode, hopened, histate, huntouched, hlast⟩ := send_ends hi ha hm hk hw (.inl rfl) hr hrun
  refine ⟨hmode, hopened, histate, huntouched .rs fun ops h => programOf_nib_leaves_rs _ _ v st _ h, ?_⟩
  rw [programOf, runItems_append, runItems_settle, runItems_nibble] at hlast
  have bit : ∀ i, i < 4 → lineBit (v.setWidth 4) i = v.getLsbD i := fun i h => by
    rw [lineBit, BitVec.getLsbD_setWidth, decide_eq_true h, Bool.true_and]
  obtain ⟨hok, hlvl, hstrobes⟩ | ⟨hfault, hfrom, hto⟩ := hlast
  · refine .inl ⟨hok, ?_, hstrobes⟩
    rw [hlvl, bit 0 (by decide), bit 1 (by decide), bit 2 (by decide), bit 3 (by decide)]
  · obtain ⟨l, e, hl⟩ := prefix_between hfrom hto
    refine .inr ⟨hfault, ?_⟩
    rw [e]
    obtain rfl | rfl := prefix_singleton hl
    · exact .inl (List.append_nil _)
    · exact .inr rfl

/-- Settles O35: FRAME's program has the strobes of its two nibbles, high first. -/
theorem frameSendsHighThenLowNibble : Obligations.FrameSendsHighThenLowNibble := by
  unfold Obligations.FrameSendsHighThenLowNibble
  intro s t u m b st ins hi ha hm hk he hr hrun
  have hw : (if m then Instr.data b st else .cmd b st).wellFormed = true := by cases m <;> rfl
  have hkind : programKind (if m then Instr.data b st else .cmd b st) = .frame := by cases m <;> rfl
  have hprog : programOf s.params s.opened (if m then Instr.data b st else .cmd b st) =
      frame s.params b m ++ settle s.params st := by cases m <;> rfl
  cases (exec_loads hk hw (.inl hm)).symm.trans he
  obtain ⟨hmode, hopened, histate, -, hlast⟩ := send_ends hi ha hm hk hw (.inr hkind) hr hrun
  refine ⟨hmode, hopened, histate, ?_⟩
  rw [hprog, runItems_append, runItems_settle, runItems_frame] at hlast
  have bit : ∀ i, i < 4 → lineBit (loNibble b) i = b.getLsbD i := fun i h => by
    rw [lineBit, loNibble_eq_setWidth, BitVec.getLsbD_setWidth, decide_eq_true h, Bool.true_and]
  obtain ⟨hok, hlvl, hstrobes⟩ | ⟨hfault, hfrom, hto⟩ := hlast
  · refine .inl ⟨hok, ?_, hstrobes⟩
    rw [hlvl, bit 0 (by decide), bit 1 (by decide), bit 2 (by decide), bit 3 (by decide)]
  · obtain ⟨l, e, hl⟩ := prefix_between hfrom hto
    refine .inr ⟨hfault, ?_⟩
    rw [e]
    obtain rfl | ⟨l', rfl, hl'⟩ := List.prefix_cons_iff.1 hl
    · exact .inl (List.append_nil _)
    · obtain rfl | rfl := prefix_singleton hl'
      · exact .inr (.inl rfl)
      · exact .inr (.inr rfl)

/-- INIT's program, from any lines, has the fourteen strobes of the handshake under RS low, and leaves the lines of its last
frame (R241, R248). -/
theorem runItems_initProg (c : Params) (rm1 : BitVec 2) (lf : Bool) (a : Lines) : runItems (initProg c rm1 lf) a =
    { lvl := { rs := .low, e := .low, d0 := .high, d1 := .low, d2 := .low, d3 := .low }
      strobes := a.strobes ++
        [0x3#4, 0x3#4, 0x3#4, 0x2#4, hiNibble (functionSet rm1 lf), loNibble (functionSet rm1 lf),
          0x1#4, 0x0#4, 0x0#4, 0xC#4, 0x0#4, 0x6#4, 0x0#4, 0x1#4].map (nibbleStrobe .low) } := by
  have opens : runItems [.group (Pins.const (some .openPin)), .group (Pins.const (some (.write false))), .wait c.nPowerOn] a =
      { lvl := Pins.const .low, strobes := a.strobes } := rfl
  have wait : ∀ n a, runItems [.wait n] a = a := fun _ _ => rfl
  simp only [initProg, runItems_append, opens, wait, runItems_nibble, runItems_frame, List.append_assoc]
  rfl

/-- Settles O37: INIT's progress from its start, and its two finishes. -/
theorem initRunsHandshake : Obligations.InitRunsHandshake := by
  unfold Obligations.InitRunsHandshake
  intro s u ins hi ha hm hu0 hr hrun
  have hk : s.pk = .init := hi.pk_of_init hm
  have hprog : prog s = initProg s.params s.cfgRowsM1Q s.cfgLfQ := by rw [prog, hk]
  have hne : s.pk ≠ .none := by rw [hk]; decide
  have start := Progress.start hi ha hne hu0
  rw [hprog, hk] at start
  obtain ⟨v, hiv, hj, -, hp, hend, hu⟩ := (progress_kept _ _ _).runToIdle hi start hne hr hrun
  have hmv : v.mode = .init := hiv.mode_of_init hj.pk
  obtain ⟨hclean, -, -⟩ := hj.at_end hp hend
  have hstrobes : strobes (finish v.fault v).history = strobes v.history := congrArg Replay.strobes (replay_finish _ v)
  have finished : u.mode = (finish v.fault v).mode ∧ u.istate = (finish v.fault v).istate ∧ u.upc = v.upc ∧
      u.opened = v.opened ∧ u.lvl = v.lvl ∧ u.now = v.now ∧ strobes u.history = strobes v.history ∧
      ∀ ev ∈ (finish v.fault v).history, ev ∈ u.history := by
    obtain rfl | ⟨-, rfl⟩ := hu
    · exact ⟨rfl, rfl, finish_upc _ _, finish_opened _ _, finish_lvl _ _, finish_now _ _, hstrobes, fun _ h => h⟩
    · refine ⟨rfl, rfl, finish_upc _ _, finish_opened _ _, finish_lvl _ _, finish_now _ _, ?_,
        fun _ h => List.mem_append_left _ h⟩
      exact (congrArg Replay.strobes (replay_snoc _ _)).trans hstrobes
  obtain ⟨hmode, histate, hupc, hopened, hlvl, hnow, hstr, hmem⟩ := finished
  rw [finish_mode, hj.pk] at hmode
  rw [finish_istate, hj.pk] at histate
  rw [finish_history, hj.pk] at hmem
  cases hf : v.fault with
  | false =>
    obtain ⟨hl, hs⟩ := hclean hf
    rw [runItems_initProg] at hl hs
    dsimp only at hl hs
    rw [hf] at hmode histate hmem
    refine .inl ⟨hmode, histate, ?_, ?_, hlvl.trans hl, hstr.trans hs⟩
    · rw [hopened]
      exact hiv.opened_at_initEnd hmv hj.pk hp hf (hend.resolve_left (by simp [hf]))
    · rw [hnow]; exact hmem _ (by simp)
  | true =>
    rw [hf] at hmode histate hmem
    refine .inr ⟨hmode, ?_, ?_⟩
    · rw [hnow]; exact hmem _ (by simp)
    · rw [histate, hupc]; exact hiv.istateInit hmv

end Sys2Proof.Machine
end

section
/-! Timing (R252, R347): with the members of each group answering OK together, a program runs for the ticks of its latencies
and waits, and one more. -/

namespace Sys2Proof.Machine

/-! ### Runs whose every tick is accounted for -/

/-- The inputs lead from the state to an `End` state, every state before it `Good`. -/
def RunsTo (Good End : State → Prop) : List TickIn → State → Prop
  | [], s => End s
  | i :: ins, s => Good s ∧ ∃ t, tick i s = .next t ∧ RunsTo Good End ins t

theorem RunsTo.append {Good Mid End : State → Prop} {ins ins' : List TickIn} {s : State} (h : RunsTo Good Mid ins s)
    (h' : ∀ t, Mid t → RunsTo Good End ins' t) : RunsTo Good End (ins ++ ins') s := by
  induction ins generalizing s with
  | nil => exact h' s h
  | cons i ins ih =>
    obtain ⟨hg, t, ht, hrun⟩ := h
    exact ⟨hg, t, ht, ih hrun⟩

theorem RunsTo.ends {Good End : State → Prop} {ins : List TickIn} {s : State} (h : RunsTo Good End ins s) :
    ∃ t, runTicks ins s = .next t ∧ End t := by
  induction ins generalizing s with
  | nil => exact ⟨s, rfl, h⟩
  | cons i ins ih =>
    obtain ⟨-, t, ht, hrun⟩ := h
    rw [runTicks_cons ht]
    exact ih hrun

theorem RunsTo.before {Good End : State → Prop} {ins : List TickIn} {s : State} (h : RunsTo Good End ins s) {k : Nat}
    (hk : k < ins.length) : ∃ t, runTicks (ins.take k) s = .next t ∧ Good t := by
  induction ins generalizing s k with
  | nil => cases hk
  | cons i ins ih =>
    obtain ⟨hg, t, ht, hrun⟩ := h
    cases k with
    | zero => exact ⟨s, rfl, hg⟩
    | succ k =>
      rw [List.take_succ_cons, runTicks_cons ht]
      exact ih hrun (Nat.lt_of_succ_lt_succ hk)

/-- A run without a reset counts its ticks. -/
theorem runTicks_now {ins : List TickIn} {s t : State} (hr : NoReset ins) (h : runTicks ins s = .next t) :
    t.now = s.now + ins.length := by
  induction ins generalizing s with
  | nil => cases h; rfl
  | cons i ins ih =>
    obtain ⟨u, hu, ht⟩ := andThen_next h
    rw [ih hr.tail ht, tick_now hr.head hu, List.length_cons]
    omega

/-! ### The inputs of a program: their number -/

/-- The counts of all waits of a program together. -/
def waitTotal (items : List Item) : Nat := ((items.map waitCount).map fun n => n.getD 0).sum

theorem waitTotal_append (xs ys : List Item) : waitTotal (xs ++ ys) = waitTotal xs + waitTotal ys := by
  simp [waitTotal]

theorem groupCount_append (xs ys : List Item) : groupCount (xs ++ ys) = groupCount xs + groupCount ys :=
  List.countP_append ..

theorem groupCount_cons_wait (n : Nat) (items : List Item) : groupCount (.wait n :: items) = groupCount items := by
  simp [groupCount]

theorem groupCount_cons_group (ops : Pins (Option PinOp)) (items : List Item) :
    groupCount (.group ops :: items) = groupCount items + 1 := by
  simp [groupCount]

theorem itemInputs_length {items : List Item} {ls : List Nat} (hlen : ls.length = groupCount items) (hls : ∀ l ∈ ls, 1 ≤ l) :
    (itemInputs items ls).length = ls.sum + waitTotal items := by
  induction items generalizing ls with
  | nil =>
    rw [List.length_eq_zero_iff.1 hlen]; rfl
  | cons item items ih =>
    cases item with
    | wait n =>
      rw [groupCount_cons_wait] at hlen
      simp only [itemInputs, List.length_append, List.length_replicate, ih hlen hls, waitTotal, List.map_cons, waitCount,
        List.sum_cons, Option.getD_some]
      omega
    | group ops =>
      rw [groupCount_cons_group] at hlen
      cases ls with
      | nil => cases hlen
      | cons l ls =>
        have hl : 1 ≤ l := hls l (List.mem_cons_self ..)
        have ih' := ih (Nat.succ.inj hlen) fun l' h => hls l' (List.mem_cons_of_mem _ h)
        simp only [itemInputs, List.length_append, List.length_replicate, List.length_cons, ih', waitTotal, List.map_cons,
          waitCount, List.sum_cons, Option.getD_none]
        omega

theorem noReset_append {ins ins' : List TickIn} (h : NoReset ins) (h' : NoReset ins') : NoReset (ins ++ ins') :=
  List.forall_mem_append.2 ⟨h, h'⟩

theorem noReset_replicate (n : Nat) : NoReset (List.replicate n quiet) := fun i h => by rw [List.eq_of_mem_replicate h]; rfl

theorem noReset_itemInputs (items : List Item) (ls : List Nat) : NoReset (itemInputs items ls) := by
  have answers : ∀ {ins}, NoReset ins → NoReset (answerAll :: ins) := fun h => List.forall_mem_cons.2 ⟨rfl, h⟩
  induction items generalizing ls with
  | nil => exact fun _ h => by cases h
  | cons item items ih =>
    cases item with
    | wait n => exact noReset_append (noReset_replicate n) (ih ls)
    | group ops =>
      cases ls with
      | nil => exact answers (ih [])
      | cons l ls => exact noReset_append (noReset_replicate _) (answers (ih ls))

theorem noReset_programInputs (items : List Item) (ls : List Nat) : NoReset (programInputs items ls) :=
  List.forall_mem_cons.2 ⟨rfl, noReset_itemInputs items ls⟩

/-! ### A program on its course -/

/-- `s` is still the running program of `s0`, with nothing answered since. -/
structure StillRunning (s0 s : State) : Prop where
  pk : s.pk = s0.pk
  mode : s.mode = s0.mode
  responses : responses s.history = responses s0.history

/-- The program of `s0` runs in `s` without a fault, and `k` of its items have started. -/
structure OnCourse (s0 : State) (k : Nat) (s : State) : Prop extends StillRunning s0 s where
  inv : BlockInv s
  items : prog s = prog s0
  fault : s.fault = false
  upc : s.upc.toNat = k

/-- What an item that has just started has made of `pend` and `wait`. -/
def InFlight (item : Item) (s : State) : Prop :=
  match item with
  | .group ops => s.wait = 0 ∧ ∀ p, hasBit s.pend p = (ops.get p).isSome
  | .wait n => s.wait = n ∧ s.pend = 0#6

/-- `s` is where the program of `s0` goes on after `k` items: the next item has just started, or it has finished. -/
structure GoneOn (s0 : State) (k : Nat) (s : State) : Prop where
  started : ∀ item, (prog s0)[k]? = some item → OnCourse s0 (k + 1) s ∧ InFlight item s
  finished : k = (prog s0).length → ∃ v, OnCourse s0 k v ∧ s = finish false v

theorem OnCourse.begun {s0 s : State} {k : Nat} (h : OnCourse s0 k s) : OnCourse s0 k (beginTick s) :=
  { pk := h.pk, mode := h.mode, responses := h.responses, inv := beginTick_inv h.inv, items := h.items, fault := h.fault
    upc := h.upc }

theorem OnCourse.setWait {s0 s : State} {k n : Nat} (h : OnCourse s0 k s) (hk : s0.pk ≠ .none) (hn : n ≤ s.wait) :
    OnCourse s0 k { s with wait := n } :=
  { pk := h.pk, mode := h.mode, responses := h.responses, inv := h.inv.setWait hn (by rw [h.pk]; exact hk), items := h.items
    fault := h.fault, upc := h.upc }

/-- A tick that samples to nothing outstanding and no wait left goes on (R144). -/
theorem OnCourse.goes_on {s0 s : State} {k : Nat} {i : TickIn} (hk : s0.pk ≠ .none) (hr : i.rst = false)
    (hrq : i.rq = none) (h : OnCourse s0 k (phase1 i.rsp (beginTick s))) (hp : (phase1 i.rsp (beginTick s)).pend = 0#6)
    (hw : (phase1 i.rsp (beginTick s)).wait ≤ 1) : ∃ t, tick i s = .next t ∧ GoneOn s0 k t := by
  generalize hu : phase1 i.rsp (beginTick s) = u at *
  have hku : u.pk ≠ .none := by rw [h.pk]; exact hk
  have h0 : OnCourse s0 k { u with wait := 0 } := h.setWait hk (Nat.zero_le _)
  have hmax : k ≤ (prog s0).length := by rw [← h.items, ← h.upc]; exact h.inv.upcRange hku
  have htick : tick i s = andThen (advance { u with wait := 0 }) (phase3 none s.mode s.pk) := by
    rw [tick_of_not_rst s hr, hu, phase2_advance hku hp hw, hrq]
  obtain hlt | rfl := Nat.lt_or_eq_of_le hmax
  · have hget : (prog s0)[k]? = some (prog s0)[k] := List.getElem?_eq_getElem hlt
    have hitem : (prog { u with wait := 0 })[u.upc.toNat]? = some (prog s0)[k] := by rw [h0.items, h.upc]; exact hget
    have hadv := advance_starts (s := { u with wait := 0 }) h.fault hitem
    refine ⟨_, by rw [htick, hadv]; rfl, fun item hi => ?_, fun e => absurd e (Nat.ne_of_lt hlt)⟩
    cases hget.symm.trans hi
    generalize (prog s0)[k] = item at *
    refine ⟨{ pk := ?_, mode := ?_, responses := ?_, inv := startItem_inv h0.inv hku hp rfl h.fault hitem, items := ?_,
              fault := ?_, upc := ?_ }, ?_⟩
    · rw [startItem_pk]; exact h.pk
    · rw [startItem_mode]; exact h.mode
    · rw [startItem_history, responses_append, ← h.responses]
      cases item with
      | group ops => rw [responses_groupEvents, Nat.add_zero]
      | wait n => rfl
    · rw [startItem_prog]; exact h0.items
    · rw [startItem_fault]; exact h.fault
    · rw [startItem_upc, (upc_succ hitem).1]; exact congrArg (· + 1) h.upc
    · cases item with
      | group ops =>
        refine ⟨startItem_group_wait _ _, fun p => ?_⟩
        rw [startItem_group_pend, hp, hasBit_zero, Bool.false_or]
      | wait n => exact ⟨startItem_wait_count h0.inv.params (List.mem_of_getElem? hitem), hp⟩
  · have hend : u.upc.toNat = (prog { u with wait := 0 }).length := by rw [h0.items]; exact h.upc
    have hadv := advance_finishes (s := { u with wait := 0 }) (.inr hend)
    refine ⟨_, by rw [htick, hadv]; rfl, fun item hi => ?_, fun _ => ⟨_, h0, ?_⟩⟩
    · rw [List.getElem?_eq_none (Nat.le_refl _)] at hi; cases hi
    · exact congrArg (finish · _) h.fault

/-! ### The ticks of an item -/

theorem phase1_quiet (s : State) : phase1 quiet.rsp s = s := by
  have none : ∀ p, sample quiet.rsp s p = s := fun p => by
    have hr : quiet.rsp.get p = none := Pins.get_const _ p
    rw [sample, hr]
  simp [phase1, Chan.all, none]

/-- A wait of `n + 1` takes as many quiet ticks, the last of which goes on (R143). -/
theorem OnCourse.runs_wait {s0 : State} (hk : s0.pk ≠ .none) (k n : Nat) : ∀ {s : State}, OnCourse s0 k s → s.pend = 0#6 →
    s.wait = n + 1 → RunsTo (StillRunning s0) (GoneOn s0 k) (List.replicate (n + 1) quiet) s := by
  induction n with
  | zero =>
    intro s h hp hw
    obtain ⟨t, ht, hgone⟩ := OnCourse.goes_on (s := s) (i := quiet) hk rfl rfl (by rw [phase1_quiet]; exact h.begun)
      (by rw [phase1_quiet]; exact hp) (by rw [phase1_quiet]; exact Nat.le_of_eq hw)
    exact ⟨h.toStillRunning, t, ht, hgone⟩
  | succ n ih =>
    intro s h hp hw
    have hks : (beginTick s).pk ≠ .none := by rw [beginTick_pk, h.pk]; exact hk
    have counted : tick quiet s = .next { beginTick s with wait := s.wait - 1 } := by
      rw [tick_of_not_rst s rfl, phase1_quiet, phase2_wait hks hp (by rw [beginTick_wait, hw]; omega)]
      rfl
    exact ⟨h.toStillRunning, _, counted, ih (h.begun.setWait hk (Nat.sub_le _ _)) hp (by rw [hw]; rfl)⟩

/-- When every outstanding transaction answers OK, nothing is outstanding and no fault is latched (R73). -/
theorem OnCourse.answered {s0 s : State} {k : Nat} (h : OnCourse s0 k s) :
    OnCourse s0 k (phase1 answerAll.rsp (beginTick s)) ∧ (phase1 answerAll.rsp (beginTick s)).pend = 0#6 := by
  have hok : ∀ p, answerAll.rsp.get p = some .ok := Pins.get_const _
  have noFault : ∀ p, answer answerAll.rsp (beginTick s) p ≠ some .fault := fun p ha => by
    have := (answer_some ha).2
    rw [hok] at this
    cases this
  refine ⟨{ pk := ?_, mode := ?_, responses := ?_, inv := phase1_inv _ (beginTick_inv h.inv), items := ?_, fault := ?_,
            upc := ?_ }, ChanSet.eq_zero_iff.2 fun p => ?_⟩
  · rw [phase1_pk]; exact h.pk
  · rw [phase1_mode]; exact h.mode
  · rw [phase1_history, responses_append, responses_completions, Nat.add_zero]; exact h.responses
  · rw [phase1_prog]; exact h.items
  · rw [phase1_fault, beginTick_fault, h.fault]; simp [noFault]
  · rw [phase1_upc]; exact h.upc
  · rw [phase1_pend, hok]; simp

/-- A group of latency `n + 1` takes `n` quiet ticks and the one that answers it, which goes on (R142). -/
theorem OnCourse.runs_group {s0 : State} (hk : s0.pk ≠ .none) (k n : Nat) : ∀ {s : State}, OnCourse s0 k s → s.pend ≠ 0#6 →
    s.wait = 0 → RunsTo (StillRunning s0) (GoneOn s0 k) (List.replicate n quiet ++ [answerAll]) s := by
  induction n with
  | zero =>
    intro s h _ hw
    obtain ⟨hcourse, hpend⟩ := h.answered
    obtain ⟨t, ht, hgone⟩ := OnCourse.goes_on (s := s) (i := answerAll) hk rfl rfl hcourse hpend
      (by rw [phase1_wait, beginTick_wait, hw]; exact Nat.zero_le _)
    exact ⟨h.toStillRunning, t, ht, hgone⟩
  | succ n ih =>
    intro s h hp hw
    have held : tick quiet s = .next (beginTick s) := by
      rw [tick_of_not_rst s rfl, phase1_quiet, phase2_hold (s := beginTick s) hp]
      rfl
    exact ⟨h.toStillRunning, _, held, ih h.begun hp hw⟩

theorem getElem?_of_drop_eq_cons {α : Type} {l rest : List α} {k : Nat} {a : α} (h : l.drop k = a :: rest) :
    l[k]? = some a ∧ l.drop (k + 1) = rest := by
  constructor
  · have := congrArg (·[0]?) h
    simpa using this
  · rw [← List.drop_drop, h]; rfl

/-- From where a program goes on, the inputs of the items left lead to its finish. -/
theorem GoneOn.runs {s0 : State} (hk : s0.pk ≠ .none) (hl : Config.legal s0.params = true) {items : List Item} : ∀ {k : Nat}
    {ls : List Nat} {s : State}, k ≤ (prog s0).length → (prog s0).drop k = items → ls.length = groupCount items →
    (∀ l ∈ ls, 1 ≤ l) → GoneOn s0 k s →
    RunsTo (StillRunning s0) (fun t => ∃ v, OnCourse s0 (prog s0).length v ∧ t = finish false v) (itemInputs items ls) s := by
  induction items with
  | nil =>
    intro k ls s hle hdrop _ _ h
    have hend : k = (prog s0).length := Nat.le_antisymm hle (List.drop_eq_nil_iff.1 hdrop)
    have hfin := h.finished hend
    rw [hend] at hfin
    exact hfin
  | cons item items ih =>
    intro k ls s _ hdrop hlen hls h
    obtain ⟨hget, hrest⟩ := getElem?_of_drop_eq_cons hdrop
    have hmem : item ∈ prog s0 := List.mem_of_getElem? hget
    have hle : k + 1 ≤ (prog s0).length := (List.getElem?_eq_some_iff.1 hget).1
    obtain ⟨hcourse, hflight⟩ := h.started item hget
    cases item with
    | wait n =>
      obtain ⟨hw, hp⟩ := hflight
      have hn : 1 ≤ n := (count_range hl (wait_mem_prog hmem)).1
      obtain ⟨m, rfl⟩ : ∃ m, n = m + 1 := ⟨n - 1, by omega⟩
      rw [groupCount_cons_wait] at hlen
      exact (hcourse.runs_wait hk _ m hp hw).append fun t ht => ih hle hrest hlen hls ht
    | group ops =>
      obtain ⟨hw, hp⟩ := hflight
      rw [groupCount_cons_group] at hlen
      cases ls with
      | nil => cases hlen
      | cons l ls =>
        have hne : s.pend ≠ 0#6 := by
          obtain ⟨p, hmember⟩ := hasMember_prog s0 _ hmem
          intro e
          rw [← hp p, e, hasBit_zero] at hmember
          cases hmember
        have hrun := (hcourse.runs_group hk _ (l - 1) hne hw).append
          fun t ht => ih hle hrest (Nat.succ.inj hlen) (fun l' h => hls l' (List.mem_cons_of_mem _ h)) ht
        rw [List.append_assoc] at hrun
        exact hrun

/-- From its load, or from reset, a program runs for its inputs and finishes in the last of them. -/
theorem program_runs {s0 : State} {ls : List Nat} (hi : BlockInv s0) (hk : s0.pk ≠ .none) (hu : s0.upc = 0#7)
    (hlen : ls.length = groupCount (prog s0)) (hls : ∀ l ∈ ls, 1 ≤ l) :
    RunsTo (StillRunning s0) (fun t => ∃ v, OnCourse s0 (prog s0).length v ∧ t = finish false v)
      (programInputs (prog s0) ls) s0 := by
  have hp : s0.pend = 0#6 := ChanSet.eq_zero_iff.2 (hi.pend_of_upc_zero hu)
  have hw : s0.wait = 0 := by
    by_contra hw
    obtain ⟨-, -, n, hc, -⟩ := hi.waiting (by omega)
    rw [currentItem_of_upc_zero hu] at hc
    cases hc
  have start : OnCourse s0 0 s0 :=
    { pk := rfl, mode := rfl, responses := rfl, inv := hi, items := rfl, fault := hi.fresh hk hu, upc := by rw [hu]; rfl }
  obtain ⟨t, ht, hgone⟩ := OnCourse.goes_on (s := s0) (i := quiet) hk rfl rfl (by rw [phase1_quiet]; exact start.begun)
    (by rw [phase1_quiet]; exact hp) (by rw [phase1_quiet, beginTick_wait, hw]; exact Nat.zero_le _)
  exact ⟨start.toStillRunning, t, ht, hgone.runs hk hi.params (Nat.zero_le _) List.drop_zero hlen hls⟩

theorem programInputs_length {items : List Item} {ls : List Nat} (hlen : ls.length = groupCount items)
    (hls : ∀ l ∈ ls, 1 ≤ l) : (programInputs items ls).length = 1 + ls.sum + waitTotal items := by
  rw [programInputs, List.length_cons, itemInputs_length hlen hls]
  omega

/-! ### The waits of each program (R347) -/

theorem waitTotal_nibble (c : Params) (v : Nibble) : waitTotal (nibble c v) = c.nStrobe := by
  rw [waitTotal, nibble_waitCounts]; simp

theorem waitTotal_frame (c : Params) (b : Byte) (m : Bool) : waitTotal (frame c b m) = 2 * c.nStrobe := by
  rw [waitTotal, frame_waitCounts]; simp; omega

theorem waitTotal_settle (c : Params) (st : Bool) : waitTotal (settle c st) = if st = true then c.nLong else 0 := by
  cases st <;> rfl

theorem waitTotal_closeProg (m : ChanSet) : waitTotal (closeProg m) = 0 := by
  unfold closeProg
  split <;> rfl

theorem waitTotal_initProg (c : Params) (rm1 : BitVec 2) (lf : Bool) : waitTotal (initProg c rm1 lf) =
    14 * c.nStrobe + c.nPowerOn + c.nW1 + c.nW2 + c.nW3 + c.nLong := by
  have opens : waitTotal [.group (Pins.const (some .openPin)), .group (Pins.const (some (.write false))), .wait c.nPowerOn] =
      c.nPowerOn := by simp [waitTotal, waitCount]
  have wait : ∀ n, waitTotal [.wait n] = n := fun _ => rfl
  simp only [initProg, waitTotal_append, waitTotal_nibble, waitTotal_frame, opens, wait]
  omega

theorem groupCount_initProg (c : Params) (rm1 : BitVec 2) (lf : Bool) : groupCount (initProg c rm1 lf) = 49 := by
  have opens : groupCount [.group (Pins.const (some .openPin)), .group (Pins.const (some (.write false))),
      .wait c.nPowerOn] = 2 := rfl
  have nib : ∀ v, groupCount (nibble c v) = 3 := fun _ => rfl
  have frm : ∀ b, groupCount (frame c b false) = 7 := fun _ => rfl
  have wait : ∀ n, groupCount [.wait n] = 0 := fun _ => rfl
  simp only [initProg, groupCount_append, opens, nib, frm, wait]

/-- Settles O38: the loaded program's run, whose length is its latencies and waits. -/
theorem responseTiming : Obligations.ResponseTiming := by
  unfold Obligations.ResponseTiming
  intro s t r ls hi hk he ht hlen hls total
  obtain ⟨rfl, hw, hm⟩ := exec_loaded hk he ht
  have hit : BlockInv (loadRequest r s) := loadRequest_inv hi hk hw hm
  have hrun := program_runs hit ht (loadRequest_upc r s) hlen hls
  have htotal : (programInputs (prog (loadRequest r s)) ls).length = total := by
    rw [programInputs_length hlen hls, prog_loadRequest]
    cases r <;> simp only [programOf, waitTotal_append, waitTotal_frame, waitTotal_nibble, waitTotal_settle,
      waitTotal_closeProg, total]
  refine ⟨htotal, fun k hk' => ?_, ?_⟩
  · obtain ⟨u, hu, hstill⟩ := hrun.before (by rw [htotal]; exact hk')
    exact ⟨u, hu, hstill.pk, by rw [hstill.responses, loadRequest_history]⟩
  · obtain ⟨u, hu, v, hv, rfl⟩ := hrun.ends
    have hnow := runTicks_now (noReset_programInputs _ _) hu
    rw [htotal] at hnow
    have hvpk : v.pk = programKind r := by rw [hv.pk, loadRequest_pk]
    have hvmode : v.mode = s.mode := by rw [hv.mode, loadRequest_mode]
    refine ⟨_, hu, finish_pk _ _, hnow, ?_, ?_⟩
    · rw [← hnow, finish_now, finish_history, hvpk]
      cases r <;> simp [programKind]
    · rw [finish_mode, hvpk, hvmode]
      cases r with
      | close => rfl
      | cmd b st => exact hm.resolve_right nofun
      | data b st => exact hm.resolve_right nofun
      | nib v st => exact hm.resolve_right nofun

/-- Settles O39: INIT's run from its start. -/
theorem initTiming : Obligations.InitTiming := by
  unfold Obligations.InitTiming
  intro s ls hi hm hu hlen hls c total
  have hk : s.pk = .init := hi.pk_of_init hm
  have hprog : prog s = initProg c s.cfgRowsM1Q s.cfgLfQ := by rw [prog, hk]
  have hlen' : ls.length = groupCount (prog s) := by rw [hlen, hprog, groupCount_initProg]
  have hrun := program_runs hi (by rw [hk]; decide) hu hlen' hls
  have htotal : (programInputs (prog s) ls).length = total := by
    rw [programInputs_length hlen' hls, hprog, waitTotal_initProg]
    omega
  refine ⟨htotal, fun k hk' => ?_, ?_⟩
  · obtain ⟨u, hu', hstill⟩ := hrun.before (by rw [htotal]; exact hk')
    exact ⟨u, hu', hstill.mode.trans hm⟩
  · obtain ⟨u, hu', v, hv, rfl⟩ := hrun.ends
    have hnow := runTicks_now (noReset_programInputs _ _) hu'
    rw [htotal] at hnow
    have hvpk : v.pk = .init := hv.pk.trans hk
    refine ⟨_, hu', ?_, hnow, ?_⟩
    · rw [finish_mode, hvpk]
    · rw [← hnow, finish_now, finish_history, hvpk]
      simp

end Sys2Proof.Machine
end
